-- ==== Sys2Proof/Word.lean ====
section
/-! DEFINITION. The widths of 00_scope.md R5 as types. -/

namespace Sys2Proof

/-- One register access and one coordinate lane: 32 bits (`BUS_W`, `LANE_W` of R5). -/
abbrev Word := BitVec 32

/-- A cell index or a full-depth Morton code: 64 bits (`IDX_W` of R5). -/
abbrev Index := BitVec 64

/-- A byte offset in the register window: the 8 bits of `req_addr` (R60). -/
abbrev Offset := BitVec 8

end Sys2Proof
end

