-- ==== Sys2Proof/Syntax.lean ====
section
/-! DEFINITION. The commands of 30_encoding.md R84, one constructor per row of the opcode table. -/

namespace Sys2Proof

/-- A command. The three commands that use the R field carry its value as a number (R82). -/
inductive Instr where
  /-- 0x0, 43_control.md R181. -/
  | nop
  /-- 0x1, 40_codec.md R116; `z` is the resolution of the tile. -/
  | pack (z : Nat)
  /-- 0x2, 40_codec.md R114. -/
  | unpack
  /-- 0x3, 40_codec.md R119. -/
  | check
  /-- 0x4, 40_codec.md R121. -/
  | getres
  /-- 0x5, 41_hierarchy.md R140; `p` is parentRes. -/
  | parent (p : Nat)
  /-- 0x6, 41_hierarchy.md R143; `c` is childRes. -/
  | children (c : Nat)
  /-- 0x7, 41_hierarchy.md R145. -/
  | nextchild
  /-- 0x8, 42_morton.md R171. -/
  | menc
  /-- 0x9, 42_morton.md R173. -/
  | mdec
  deriving DecidableEq, Repr

end Sys2Proof
end

