-- ==== Sys2Proof/WellFormed.lean ====
section
/-! DEFINITION. Which commands have an encoding: an operand fits the five bits of R. -/

namespace Sys2Proof

/-- The operand range of 30_encoding.md R89: "An assembler refuses an operand above 31". Values 27
to 31 are encodable (R82). -/
def Instr.wellFormed : Instr → Bool
  | .nop => true
  | .pack z => z ≤ 31
  | .unpack => true
  | .check => true
  | .getres => true
  | .parent p => p ≤ 31
  | .children c => c ≤ 31
  | .nextchild => true
  | .menc => true
  | .mdec => true

/-- `Instr.wellFormed` as a proposition. -/
abbrev Instr.WellFormed (i : Instr) : Prop := i.wellFormed = true

end Sys2Proof
end

