-- ==== Sys2Proof/Decode.lean ====
section
/-! DEFINITION. The decoder of 30_encoding.md R85, total on 32-bit words, and the encoder of R89. -/

namespace Sys2Proof

/-- Why a word selects no command. All three raise IllegalCommand (60_exceptions.md R201). -/
inductive DecodeError where
  /-- A bit of Z0 or Z1 is set (R83). -/
  | reservedBits
  /-- OP is 0xA to 0xF (R86). -/
  | reservedOpcode
  /-- R is not 0 on a command that does not use it (R87). -/
  | argumentNotTaken
  deriving DecidableEq, Repr

/-- OP, bits 3..0, as a number (R81). -/
def opField (w : Word) : Nat := (w.extractLsb' 0 4).toNat

/-- Z0, bits 7..4 (R80). -/
def z0Field (w : Word) : BitVec 4 := w.extractLsb' 4 4

/-- R, bits 12..8, as a number (R82). -/
def rField (w : Word) : Nat := (w.extractLsb' 8 5).toNat

/-- Z1, bits 31..13 (R80). -/
def z1Field (w : Word) : BitVec 19 := w.extractLsb' 13 19

/-- Does the command with this opcode read R (the column "R used" of R84)? -/
def opUsesR (op : Nat) : Bool := op == 0x1 || op == 0x5 || op == 0x6

/-- The opcode map of R84, with the value of R for the commands that use it. -/
def commandOf (op r : Nat) : Option Instr :=
  match op with
  | 0x0 => some .nop
  | 0x1 => some (.pack r)
  | 0x2 => some .unpack
  | 0x3 => some .check
  | 0x4 => some .getres
  | 0x5 => some (.parent r)
  | 0x6 => some (.children r)
  | 0x7 => some .nextchild
  | 0x8 => some .menc
  | 0x9 => some .mdec
  | _ => none

/-- R85: the tests in its order, the first that fires decides. -/
def decode (w : Word) : Except DecodeError Instr :=
  if z1Field w ≠ 0#19 ∨ z0Field w ≠ 0#4 then .error .reservedBits
  else
    match commandOf (opField w) (rField w) with
    | none => .error .reservedOpcode
    | some i => if opUsesR (opField w) = false ∧ rField w ≠ 0 then .error .argumentNotTaken else .ok i

/-- The opcode and the R value of a command (R84). -/
def fieldsOf : Instr → Nat × Nat
  | .nop => (0x0, 0)
  | .pack z => (0x1, z)
  | .unpack => (0x2, 0)
  | .check => (0x3, 0)
  | .getres => (0x4, 0)
  | .parent p => (0x5, p)
  | .children c => (0x6, c)
  | .nextchild => (0x7, 0)
  | .menc => (0x8, 0)
  | .mdec => (0x9, 0)

/-- `enc(op, r) = (r << 8) | op` as a 32-bit word (R89). -/
def enc (op r : Nat) : Word := BitVec.ofNat 32 r <<< 8 ||| BitVec.ofNat 32 op

/-- The command word of a command (R89). A well-formed command decodes back from it. -/
def encode (i : Instr) : Word := enc (fieldsOf i).1 (fieldsOf i).2

/-- The command the decoder reads from a word of `nbits` bits, bits above `nbits` being 0. A command
is one 32-bit word written whole (R80), so a number that does not fit one is no command. -/
def decodeTableWord (nbits w : Nat) : Option Instr :=
  if w % 2 ^ nbits < 2 ^ 32 then (decode (BitVec.ofNat 32 (w % 2 ^ nbits))).toOption else none

end Sys2Proof
end

