-- ==== Sys2Proof/Config.lean ====
section
/-! DEFINITION. The implementation parameters of 00_scope.md R5. The two OPEN ones are opaque: a
statement about the model holds for every value they may have. -/

namespace Sys2Proof.Config

/-- `MAX_RES` of R5: the largest legal resolution. -/
def maxRes : Nat := 26

/-- `WINDOW` of R5: the size of the register window in bytes. -/
def windowBytes : Nat := 256

/-- `ID_VALUE` of R5, what the constant register ID reads (10_state.md R33). -/
def idValue : Word := 0x51420701#32

/-- `CMD_LATENCY - 1`. R5 leaves `CMD_LATENCY` OPEN, at least 1 (D27); assumption 8. -/
opaque cmdLatencyPred : Nat

/-- `CMD_LATENCY` of R5 and R245: clock cycles from the acceptance of a CMD write to its response. -/
def cmdLatency : Nat := cmdLatencyPred + 1

/-- `BASE_ADDR` of R5: where the platform places the window, OPEN (D31); assumption 8. -/
opaque baseAddr : Nat

/-- The address at which the host's address map holds the register at `a` (20_memory.md R63). -/
def hostAddress (a : Offset) : Nat := baseAddr + a.toNat

end Sys2Proof.Config
end

