-- ==== Sys2Proof/Machine/Bits.lean ====
section
/-! DEFINITION. Bit fields and halves of 64-bit values (00_scope.md R6 to R8, 20_memory.md R65). -/

namespace Sys2Proof.Machine

/-- Bits 31..0 of a 64-bit register, the word at its lower offset (R65). -/
def loWord (v : Index) : Word := v.extractLsb' 0 32

/-- Bits 63..32 of a 64-bit register, the word at the offset 4 higher (R65). -/
def hiWord (v : Index) : Word := v.extractLsb' 32 32

/-- `hi ‖ lo` (R8). -/
def joinWords (hi lo : Word) : Index := (hi ++ lo : BitVec (32 + 32))

/-- A 64-bit register with its low word replaced (R67, offset 0x10). -/
def setLoWord (v : Index) (w : Word) : Index := joinWords (hiWord v) w

/-- A 64-bit register with its high word replaced (R67, offset 0x14). -/
def setHiWord (v : Index) (w : Word) : Index := joinWords w (loWord v)

/-- Bit 63, TOP (40_codec.md R101). -/
def topBit (v : Index) : BitVec 1 := v.extractLsb' 63 1

/-- Bit 62, HDR (40_codec.md R102). -/
def hdrBit (v : Index) : BitVec 1 := v.extractLsb' 62 1

/-- Bits 61..59, MODE (40_codec.md R103). -/
def modeField (v : Index) : BitVec 3 := v.extractLsb' 59 3

/-- Bits 58..57, EXTRA (40_codec.md R104). -/
def extraField (v : Index) : BitVec 2 := v.extractLsb' 57 2

/-- Bits 56..52, the resolution field (40_codec.md R105). -/
def resField (v : Index) : BitVec 5 := v.extractLsb' 52 5

/-- `res(v)`, the resolution as a number 0 to 31, with no check (40_codec.md R105). -/
def resOf (v : Index) : Nat := (resField v).toNat

end Sys2Proof.Machine
end

