-- ==== Sys2Proof/Machine/Interleave.lean ====
section
/-! DEFINITION. The spread and compact stages (40_codec.md R109, R111; 00_scope.md R9; 90_conflicts.md
C1) and the depth-32 Morton code (42_morton.md R170). -/

namespace Sys2Proof.Machine

/-- `B0` of R9. -/
def maskB0 : Index := 0x5555555555555555#64
/-- `B1` of R9. -/
def maskB1 : Index := 0x3333333333333333#64
/-- `B2` of R9. -/
def maskB2 : Index := 0x0F0F0F0F0F0F0F0F#64
/-- `B3` of R9. -/
def maskB3 : Index := 0x00FF00FF00FF00FF#64
/-- `B4` of R9. -/
def maskB4 : Index := 0x0000FFFF0000FFFF#64
/-- `B5` of R9. -/
def maskB5 : Index := 0x00000000FFFFFFFF#64

/-- One stage of the spread: `(v | (v << n)) & mask` (R109). -/
def spreadStage (n : Nat) (mask v : Index) : Index := (v ||| v <<< n) &&& mask

/-- One stage of the compact: `(v | (v >> n)) & mask`, with a logical shift (R111). -/
def compactStage (n : Nat) (mask v : Index) : Index := (v ||| v >>> n) &&& mask

/-- `spread32(v)` (R109), used for `v < 2^32`. -/
def spread32 (v : Index) : Index :=
  spreadStage 1 maskB0 (spreadStage 2 maskB1 (spreadStage 4 maskB2
    (spreadStage 8 maskB3 (spreadStage 16 maskB4 v))))

/-- `compact32(v)` (R111): six stages, the first the mask alone. -/
def compact32 (v : Index) : Index :=
  compactStage 16 maskB5 (compactStage 8 maskB4 (compactStage 4 maskB3
    (compactStage 2 maskB2 (compactStage 1 maskB1 (v &&& maskB0)))))

/-- The depth-32 Morton code of two lanes, x in the even bits and y in the odd (R110, R170). -/
def interleave (x y : Index) : Index := spread32 x ||| spread32 y <<< 1

/-- The even bits of a code, as a 64-bit value below 2^32 (R112). -/
def evenBits (v : Index) : Index := compact32 v

/-- The odd bits of a code, as a 64-bit value below 2^32 (R112, R173). -/
def oddBits (v : Index) : Index := compact32 (v >>> 1)

end Sys2Proof.Machine
end

