-- ==== Sys2Proof/Machine/IndexFormat.lean ====
section
/-! DEFINITION. The cell index format and the functions of one index that the commands share:
40_codec.md R100 to R108, R113 to R116, 41_hierarchy.md R140 to R144. -/

namespace Sys2Proof.Machine

/-- `FOOTER` of 00_scope.md R9, 52 ones; it also selects the position field. -/
def footerOnes : Index := 0x000FFFFFFFFFFFFF#64

/-- `HEADER` of R9, bit 62. -/
def headerMask : Index := 1#64 <<< 62

/-- `MODE_CELL` of R9 in its place. -/
def modeCell : Index := 1#64 <<< 59

/-- `footer(z) = FOOTER >> (2·z)` (R106). -/
def footer (z : Nat) : Index := footerOnes >>> (2 * z)

/-- A resolution in the field's place, `zext_64(z) << 52`. -/
def resBits (z : Nat) : Index := BitVec.ofNat 64 z <<< 52

/-- `(v & ~(0x1F << 52)) | (zext_64(z) << 52)`: the resolution field replaced (R140, R143). -/
def withRes (v : Index) (z : Nat) : Index := (v &&& ~~~(0x1F#64 <<< 52)) ||| resBits z

/-- VI, the valid index test (R107). -/
def validIndex (v : Index) : Bool :=
  topBit v == 0#1 && hdrBit v == 1#1 && modeField v != 7#3
    && decide (resOf v ≤ Config.maxRes) && (v &&& footer (resOf v)) == footer (resOf v)

/-- VC, the valid cell test (R108; `cellIsValid`, 90_conflicts.md C8). -/
def validCell (v : Index) : Bool := validIndex v && modeField v == 1#3

/-- CAN, the canonical cell test (R108; 90_conflicts.md C6). -/
def canonicalCell (v : Index) : Bool := validCell v && extraField v == 0#2

/-- `fields(v)`, what F_OUT shows of an index (R113, 10_state.md R29). -/
def fieldsWord (v : Index) : Word :=
  (resField v).setWidth 32 ||| (modeField v).setWidth 32 <<< 8 ||| (extraField v).setWidth 32 <<< 12
    ||| (hdrBit v).setWidth 32 <<< 16 ||| (topBit v).setWidth 32 <<< 17

/-- The payload top-aligned: `((v & FOOTER) << 12) mod 2^64` (R114). -/
def payload (v : Index) : Index := (v &&& footerOnes) <<< 12

/-- The x of UNPACK (R114). -/
def unpackX (v : Index) : Word := (evenBits (payload v) >>> (32 - resOf v)).setWidth 32

/-- The y of UNPACK (R114). -/
def unpackY (v : Index) : Word := (oddBits (payload v) >>> (32 - resOf v)).setWidth 32

/-- The tile invariant of 00_scope.md R11 on the coordinates: `x < 2^z` and `y < 2^z`. -/
def tileInRange (z : Nat) (x y : Word) : Bool := decide (x.toNat < 2 ^ z) && decide (y.toNat < 2 ^ z)

/-- A coordinate at the top of its 32-bit lane: `zext_64(x) << (32 − z)` (R116). -/
def alignLane (z : Nat) (x : Word) : Index := x.setWidth 64 <<< (32 - z)

/-- The index PACK writes for the tile (x, y, z) (R116). -/
def packIndex (z : Nat) (x y : Word) : Index :=
  headerMask ||| modeCell ||| resBits z ||| interleave (alignLane z x) (alignLane z y) >>> 12 ||| footer z

/-- The index PARENT writes (R140; the footer shift is `2·p`, 90_conflicts.md C2 and C3). -/
def parentIndex (v : Index) (p : Nat) : Index := withRes v p ||| footer p

/-- `n = 2^(2·d)`, the number of children `d` levels down (R143). -/
def childCount (d : Nat) : Index := 1#64 <<< (2 * d)

/-- `shift = 52 − 2·c`, the lowest position bit at child resolution `c` (R143, R145; assumption 7). -/
def childShift (c : Nat) : Nat := 52 - 2 * c

/-- The child base: the new resolution, the new position bits cleared (R143). -/
def childBase (v : Index) (c : Nat) : Index :=
  withRes v c &&& ~~~((childCount (c - resOf v) - 1#64) <<< childShift c)

/-- `child(k) = base | (k << shift)`, the shift taken from the base (R40, R144, R145). -/
def childAt (base k : Index) : Index := base ||| k <<< childShift (resOf base)

end Sys2Proof.Machine
end

