-- ==== Sys2Proof/Machine/State.lean ====
section
/-! DEFINITION. The state of the block (10_state.md R20), of its port (20_memory.md R60 to R62) and
the host's pins, with the state after reset (70_reset_and_hazards.md R231). -/

namespace Sys2Proof.Machine

/-- The input pins of one clock cycle (R60). -/
structure Pins where
  /-- `rst_n`: false holds the block in reset (R230). -/
  rstN : Bool
  /-- `req_valid`: the host presents an access. -/
  reqValid : Bool
  /-- `req_write`: true is a write, false a read. -/
  reqWrite : Bool
  /-- `req_addr`: the byte offset in the register window. -/
  reqAddr : Offset
  /-- `req_wdata`: the write data. -/
  reqWdata : Word
  deriving DecidableEq, Repr

/-- A response, in the cycle where `rsp_valid` is 1 (R60, R61). -/
structure Response where
  /-- `rsp_rdata`: the read data; 0 for a write or an error. -/
  rdata : Word
  /-- `rsp_err`: the access was refused (R76). -/
  err : Bool
  deriving DecidableEq, Repr

/-- The whole state. The registers are those of R20; STATUS is held field by field (R31, assumption
6), and its 32-bit value is `State.status`. ID is the constant `Config.idValue` (R33). -/
structure State where
  /-- IDX_IN (R23). -/
  idxIn : Index
  /-- X_IN (R24). -/
  xIn : Word
  /-- Y_IN (R25). -/
  yIn : Word
  /-- RES (R26). -/
  res : Index
  /-- X_OUT (R27). -/
  xOut : Word
  /-- Y_OUT (R28). -/
  yOut : Word
  /-- F_OUT (R29). -/
  fOut : Word
  /-- CMD (R30): the last word written, legal or not. -/
  cmd : Word
  /-- STATUS.VI (R31, R34). -/
  vi : Bool
  /-- STATUS.VC (R31, R34). -/
  vc : Bool
  /-- STATUS.CAN (R31, R34). -/
  can : Bool
  /-- STATUS.CHA (R31, R35). -/
  cha : Bool
  /-- STATUS.ERR (R31, R36). -/
  err : Bool
  /-- STATUS.ERRS (R31, R32, R36). -/
  errs : Bool
  /-- STATUS.ECODE (R31, R36). -/
  ecode : BitVec 4
  /-- CH_BASE (R40). -/
  chBase : Index
  /-- CH_K (R40). -/
  chK : Index
  /-- CH_N (R40). -/
  chN : Index
  /-- The block is held in reset and accepts nothing (R230). -/
  inReset : Bool
  /-- Clock cycles until the command in CMD completes; 0 when no access is in progress (R62). -/
  busy : Nat
  /-- The response presented in this cycle, if any (R61). -/
  rsp : Option Response
  /-- The host's pins in this cycle and the coming ones; idle after the last (assumption 1). -/
  hostIn : List Pins
  deriving DecidableEq, Repr

/-- Why the machine stops: never. An error of a command is reported in STATUS (60_exceptions.md R203)
and a bus error in the response (20_memory.md R76); both leave a next state (assumption 11). -/
inductive Fault where
  deriving DecidableEq, Repr

/-- Why an instruction has no meaning. -/
inductive Refusal where
  /-- Raised by an arm of `exec` whose instruction has no meaning yet; safe. No arm does. -/
  | notModelled (mnemonic : String)
  deriving DecidableEq, Repr

/-- The machine right after reset (R231): every register 0, no access in progress, no response, and no
access of the host placed (assumption 5). -/
def State.reset : State where
  idxIn := 0#64
  xIn := 0#32
  yIn := 0#32
  res := 0#64
  xOut := 0#32
  yOut := 0#32
  fOut := 0#32
  cmd := 0#32
  vi := false
  vc := false
  can := false
  cha := false
  err := false
  errs := false
  ecode := 0#4
  chBase := 0#64
  chK := 0#64
  chN := 0#64
  inReset := false
  busy := 0
  rsp := none
  hostIn := []

end Sys2Proof.Machine
end

