-- ==== Sys2Proof/Machine/Flags.lean ====
section
/-! DEFINITION. The STATUS register: its 32-bit value, the flags of CHECK and the error codes
(10_state.md R31 to R36, 60_exceptions.md R201). -/

namespace Sys2Proof.Machine

/-- The errors of a command (60_exceptions.md R201). -/
inductive CmdError where
  /-- A resolution outside [0,26], above the cell's (PARENT) or not above it (CHILDREN). -/
  | invalidResolution
  /-- The word selects no command. -/
  | illegalCommand
  /-- PACK of a coordinate at or above `2^z`. -/
  | tileRange
  /-- NEXTCHILD with no child left. -/
  | noIteration
  deriving DecidableEq, Repr

/-- The ECODE of an error (R201). -/
def errorCode : CmdError → BitVec 4
  | .invalidResolution => 1#4
  | .illegalCommand => 2#4
  | .tileRange => 3#4
  | .noIteration => 4#4

/-- The 32-bit value of STATUS (R31), its reserved bits 0 (R37). -/
def statusWord (s : State) : Word :=
  (0#20 ++ s.ecode ++ 0#2 ++ BitVec.ofBool s.errs ++ BitVec.ofBool s.err ++ BitVec.ofBool s.cha
    ++ BitVec.ofBool s.can ++ BitVec.ofBool s.vc ++ BitVec.ofBool s.vi : BitVec (20 + 4 + 2 + 1 + 1 + 1 + 1 + 1 + 1))

/-- The flags CHECK writes for an index, all three together (R34, R119). -/
def setCheckFlags (v : Index) (s : State) : State :=
  { s with vi := validIndex v, vc := validCell v, can := canonicalCell v }

/-- The error fields of STATUS set for the last command (R36). -/
def setErrorFields (err : Bool) (ecode : BitVec 4) (errs : Bool) (s : State) : State :=
  { s with err := err, ecode := ecode, errs := errs }

/-- A host write of `v` to STATUS: bit 5 set clears ERRS, every other bit is ignored (R32). -/
def writeStatus (v : Word) (s : State) : State := if v.getLsbD 5 then { s with errs := false } else s

end Sys2Proof.Machine
end

