-- ==== Sys2Proof/Machine/Operands.lean ====
section
/-! DEFINITION. The register window (20_memory.md R64): its names and offsets, and what reading or
writing one register does (R66, R67, R69). -/

namespace Sys2Proof.Machine

/-- The registers of the window, one per row of R64 that is not reserved. -/
inductive WinReg where
  | cmd | status | id | idxInLo | idxInHi | xIn | yIn | resLo | resHi | xOut | yOut | fOut
  | chbLo | chbHi | chkLo | chkHi | chnLo | chnHi
  deriving DecidableEq, Repr

/-- The offset of a register (R64). -/
def offsetOf : WinReg → Offset
  | .cmd => 0x00#8
  | .status => 0x04#8
  | .id => 0x08#8
  | .idxInLo => 0x10#8
  | .idxInHi => 0x14#8
  | .xIn => 0x18#8
  | .yIn => 0x1C#8
  | .resLo => 0x20#8
  | .resHi => 0x24#8
  | .xOut => 0x28#8
  | .yOut => 0x2C#8
  | .fOut => 0x30#8
  | .chbLo => 0x38#8
  | .chbHi => 0x3C#8
  | .chkLo => 0x40#8
  | .chkHi => 0x44#8
  | .chnLo => 0x48#8
  | .chnHi => 0x4C#8

/-- Every register of the window, in the order of R64. -/
def windowRegs : List WinReg :=
  [.cmd, .status, .id, .idxInLo, .idxInHi, .xIn, .yIn, .resLo, .resHi, .xOut, .yOut, .fOut,
   .chbLo, .chbHi, .chkLo, .chkHi, .chnLo, .chnHi]

/-- The register at an offset; none at a reserved or a misaligned one. -/
def regAt (a : Offset) : Option WinReg := windowRegs.find? (fun r => offsetOf r == a)

/-- The 32-bit value of a register, as R66 returns it. -/
def readReg (r : WinReg) (s : State) : Word :=
  match r with
  | .cmd => s.cmd
  | .status => statusWord s
  | .id => Config.idValue
  | .idxInLo => loWord s.idxIn
  | .idxInHi => hiWord s.idxIn
  | .xIn => s.xIn
  | .yIn => s.yIn
  | .resLo => loWord s.res
  | .resHi => hiWord s.res
  | .xOut => s.xOut
  | .yOut => s.yOut
  | .fOut => s.fOut
  | .chbLo => loWord s.chBase
  | .chbHi => hiWord s.chBase
  | .chkLo => loWord s.chK
  | .chkHi => hiWord s.chK
  | .chnLo => loWord s.chN
  | .chnHi => hiWord s.chN

/-- What a host write stores (R67). CMD only takes the word here; that the write also executes it is
`access`. Writes to the read-only registers are ignored (R69). -/
def writeReg (r : WinReg) (v : Word) (s : State) : State :=
  match r with
  | .cmd => { s with cmd := v }
  | .status => writeStatus v s
  | .id => s
  | .idxInLo => { s with idxIn := setLoWord s.idxIn v }
  | .idxInHi => { s with idxIn := setHiWord s.idxIn v }
  | .xIn => { s with xIn := v }
  | .yIn => { s with yIn := v }
  | .resLo => s
  | .resHi => s
  | .xOut => s
  | .yOut => s
  | .fOut => s
  | .chbLo => s
  | .chbHi => s
  | .chkLo => s
  | .chkHi => s
  | .chnLo => s
  | .chnHi => s

end Sys2Proof.Machine
end

