-- ==== Sys2Proof/Machine/Ops.lean ====
section
/-! DEFINITION. The shared operations: reporting an error and completing a command (60_exceptions.md
R203, R204), result register writes, the child iterator, and window accesses (20_memory.md R66 to
R69). -/

namespace Sys2Proof.Machine

/-- `raise E(info)` (R203): ERR, ECODE and ERRS are set and nothing else changes. `info` is not
recorded. -/
def raise (e : CmdError) (s : State) : State := setErrorFields true (errorCode e) true s

/-- The end of a command that completes without error (R204): ERR and ECODE cleared, ERRS kept. It is
also the way back from an error (R207). -/
def complete (s : State) : State := setErrorFields false 0#4 s.errs s

/-- `x[RES] <- v`. -/
def setRes (v : Index) (s : State) : State := { s with res := v }

/-- `x[X_OUT] <- x` and `x[Y_OUT] <- y`. -/
def setTile (x y : Word) (s : State) : State := { s with xOut := x, yOut := y }

/-- `x[F_OUT] <- fields(v)`. -/
def setFields (v : Index) (s : State) : State := { s with fOut := fieldsWord v }

/-- The iterator armed with a base and a count (41_hierarchy.md R143). -/
def armIterator (base n : Index) (s : State) : State := { s with chBase := base, chK := 0#64, chN := n, cha := true }

/-- The iterator after handing out child `CH_K` (R145): one further, inactive after the last. -/
def advanceIterator (s : State) : State :=
  { s with chK := s.chK + 1#64, cha := if s.chK + 1#64 = s.chN then false else s.cha }

/-- One access of the host (R66, R67). -/
inductive Access where
  /-- `MemRead(a, 4)`. -/
  | read (a : Offset)
  /-- `MemWrite(a, 4, v)`. -/
  | write (a : Offset) (v : Word)
  deriving DecidableEq, Repr

/-- `a[1:0] != 0` (R68). -/
def misaligned (a : Offset) : Bool := a.extractLsb' 0 2 != 0#2

/-- The response to a refused access (R76). -/
def busError : Response := { rdata := 0#32, err := true }

/-- The response to a write (R60). -/
def writeDone : Response := { rdata := 0#32, err := false }

/-- The value at an aligned offset: its register's, or 0 at a reserved one (R66, R69). -/
def windowValue (a : Offset) (s : State) : Word :=
  match regAt a with
  | some r => readReg r s
  | none => 0#32

/-- The response to `MemRead(a, 4)` (R66). -/
def readResponse (a : Offset) (s : State) : Response :=
  if misaligned a then busError else { rdata := windowValue a s, err := false }

/-- The response to `MemWrite(a, 4, v)` (R67, R76); a failing command too is answered without a bus
error (60_exceptions.md R203). -/
def writeResponse (a : Offset) : Response := if misaligned a then busError else writeDone

/-- What `MemWrite(a, 4, v)` stores (R67): nothing at a misaligned, reserved or read-only offset. -/
def windowStore (a : Offset) (v : Word) (s : State) : State :=
  if misaligned a then s
  else
    match regAt a with
    | some r => writeReg r v s
    | none => s

/-- Is this the access that executes a command (R67, R70)? -/
def startsCommand : Access → Bool
  | .read _ => false
  | .write a _ => a == offsetOf .cmd

/-- The block held in reset: every register at its reset value (R230, R231), whatever the state; the
host's pins are not the block's. -/
def holdInReset (s : State) : State := { State.reset with inReset := true, hostIn := s.hostIn }

/-- The edge on which the block leaves reset (70_reset_and_hazards.md R230). -/
def leaveReset (s : State) : State := { s with inReset := false, rsp := none }

/-- A cycle of a running command that is not its last, `n` more to come (20_memory.md R62). -/
def waitCycles (n : Nat) (s : State) : State := { s with busy := n, rsp := none }

/-- A cycle in which nothing happens: a response lasts one cycle (R61). -/
def endResponse (s : State) : State := { s with rsp := none }

end Sys2Proof.Machine
end

