-- ==== Sys2Proof/Machine/Codec.lean ====
section
/-! DEFINITION. 40_codec.md: PACK, UNPACK, CHECK, GETRES. -/

namespace Sys2Proof.Machine

/-- PACK z (R116), its errors in the order of 60_exceptions.md R205. -/
def execPack (z : Nat) (s : State) : Host.Outcome State Fault Refusal :=
  if Config.maxRes < z then .next (raise .invalidResolution s)
  else if tileInRange z s.xIn s.yIn = false then .next (raise .tileRange s)
  else .next (complete (setRes (packIndex z s.xIn s.yIn) s))

/-- UNPACK (R114). -/
def execUnpack (s : State) : Host.Outcome State Fault Refusal :=
  .next (complete (setFields s.idxIn (setTile (unpackX s.idxIn) (unpackY s.idxIn) s)))

/-- CHECK (R119). -/
def execCheck (s : State) : Host.Outcome State Fault Refusal :=
  .next (complete (setFields s.idxIn (setCheckFlags s.idxIn s)))

/-- GETRES (R121). -/
def execGetres (s : State) : Host.Outcome State Fault Refusal := .next (complete (setFields s.idxIn s))

end Sys2Proof.Machine
end

