-- ==== Sys2Proof/Machine/Control.lean ====
section
/-! DEFINITION. 43_control.md: NOP. -/

namespace Sys2Proof.Machine

/-- NOP (R181): completion clears ERR and ECODE. -/
def execNop (s : State) : Host.Outcome State Fault Refusal := .next (complete s)

end Sys2Proof.Machine
end

