-- ==== Sys2Proof/Machine/Hierarchy.lean ====
section
/-! DEFINITION. 41_hierarchy.md: PARENT, CHILDREN, NEXTCHILD. -/

namespace Sys2Proof.Machine

/-- PARENT p (R140). -/
def execParent (p : Nat) (s : State) : Host.Outcome State Fault Refusal :=
  if Config.maxRes < p ∨ resOf s.idxIn < p then .next (raise .invalidResolution s)
  else .next (complete (setRes (parentIndex s.idxIn p) s))

/-- CHILDREN c (R143). -/
def execChildren (c : Nat) (s : State) : Host.Outcome State Fault Refusal :=
  if Config.maxRes < c ∨ c ≤ resOf s.idxIn then .next (raise .invalidResolution s)
  else .next (complete (armIterator (childBase s.idxIn c) (childCount (c - resOf s.idxIn)) s))

/-- NEXTCHILD (R145). -/
def execNextchild (s : State) : Host.Outcome State Fault Refusal :=
  if s.cha = false then .next (raise .noIteration s)
  else .next (complete (advanceIterator (setRes (childAt s.chBase s.chK) s)))

end Sys2Proof.Machine
end

