-- ==== Sys2Proof/Machine/Morton.lean ====
section
/-! DEFINITION. 42_morton.md: MENC, MDEC. -/

namespace Sys2Proof.Machine

/-- MENC (R171). -/
def execMenc (s : State) : Host.Outcome State Fault Refusal :=
  .next (complete (setRes (interleave (s.xIn.setWidth 64) (s.yIn.setWidth 64)) s))

/-- MDEC (R173). -/
def execMdec (s : State) : Host.Outcome State Fault Refusal :=
  .next (complete (setTile ((evenBits s.idxIn).setWidth 32) ((oddBits s.idxIn).setWidth 32) s))

end Sys2Proof.Machine
end

