-- ==== Sys2Proof/Machine/Dispatch.lean ====
section
/-! DEFINITION. One arm per command: the meaning of every row of the opcode table. -/

namespace Sys2Proof.Machine

def exec (i : Instr) (s : State) : Host.Outcome State Fault Refusal :=
  match i with
  | .nop => Sys2Proof.Machine.execNop s
  | .pack z => Sys2Proof.Machine.execPack z s
  | .unpack => Sys2Proof.Machine.execUnpack s
  | .check => Sys2Proof.Machine.execCheck s
  | .getres => Sys2Proof.Machine.execGetres s
  | .parent p => Sys2Proof.Machine.execParent p s
  | .children c => Sys2Proof.Machine.execChildren c s
  | .nextchild => Sys2Proof.Machine.execNextchild s
  | .menc => Sys2Proof.Machine.execMenc s
  | .mdec => Sys2Proof.Machine.execMdec s

end Sys2Proof.Machine
end

