-- ==== Sys2Proof/Machine/Port.lean ====
section
/-! DEFINITION. The execution of a command word (30_encoding.md R85), one whole access (20_memory.md
R62, R71) and one clock cycle of the port (R60 to R62, 70_reset_and_hazards.md R230, R245). -/

namespace Sys2Proof.Machine

/-- Execute the word in CMD (R30, R85): the command it selects, or IllegalCommand (R86). -/
def runCommand (s : State) : Host.Outcome State Fault Refusal :=
  match decode s.cmd with
  | .ok i => exec i s
  | .error _ => .next (raise .illegalCommand s)

/-- Present a response and end the access (R61, R62). -/
def respond (r : Response) (s : State) : State := { s with busy := 0, rsp := some r }

/-- The command in CMD executes and the CMD write is answered (R62, 60_exceptions.md R203). -/
def finishCommand (s : State) : Host.Outcome State Fault Refusal :=
  match runCommand s with
  | .next t => .next (respond writeDone t)
  | .fault f => .fault f
  | .refused r => .refused r

/-- One access as one atomic step on the state (R62, R71): its effect (R66, R67) and its response. -/
def access (a : Access) (s : State) : Host.Outcome State Fault Refusal :=
  match a with
  | .read o => .next (respond (readResponse o s) s)
  | .write o v =>
    if startsCommand a then finishCommand (windowStore o v s)
    else .next (respond (writeResponse o) (windowStore o v s))

/-- Pins of a cycle in which the host presents nothing (assumption 1). -/
def idlePins : Pins := { rstN := true, reqValid := false, reqWrite := false, reqAddr := 0#8, reqWdata := 0#32 }

/-- The pins of this cycle. -/
def pinsNow (s : State) : Pins := s.hostIn.headD idlePins

/-- The clock edge passes: the next cycle's pins come up. -/
def nextCycle (s : State) : State := { s with hostIn := s.hostIn.tail }

/-- The access the pins present, if `req_valid` is 1 (R60). -/
def presented (p : Pins) : Option Access :=
  if p.reqValid then some (if p.reqWrite then .write p.reqAddr p.reqWdata else .read p.reqAddr) else none

/-- `req_ready` (R61, R62): the block is out of reset and no access is in progress (assumption 2). -/
def reqReady (s : State) : Bool := (pinsNow s).rstN && !s.inReset && s.busy == 0

/-- The response on the port in this cycle; none is `rsp_valid = 0`, as in every cycle with `rst_n` 0
(R61). -/
def portResponse (s : State) : Option Response := if (pinsNow s).rstN then s.rsp else none

/-- A cycle of the command in CMD, `n` more to come after it: with none left it executes and is
answered in the next cycle, else the block waits (R62, R245; assumption 3). -/
def commandCycle (n : Nat) (s : State) : Host.Outcome State Fault Refusal :=
  match n with
  | 0 => finishCommand s
  | m + 1 => .next (waitCycles (m + 1) s)

/-- The cycle in which an access is accepted. A CMD write takes `CMD_LATENCY` cycles, any other
access one (R62, R245). -/
def acceptCycle (a : Access) (s : State) : Host.Outcome State Fault Refusal :=
  match a with
  | .read _ => access a s
  | .write o v =>
    if startsCommand a then commandCycle Config.cmdLatencyPred (windowStore o v s) else access a s

/-- One rising edge of `clk`. With `rst_n` 0 every register takes its reset value and an access in
progress is lost (R230); the first edge with `rst_n` 1 leaves reset and accepts nothing (R230,
assumption 13); then a command in progress goes on, or an access is accepted, or nothing happens. -/
def clockCycle (s : State) : Host.Outcome State Fault Refusal :=
  if (pinsNow s).rstN = false then .next (holdInReset (nextCycle s))
  else if s.inReset = true then .next (leaveReset (nextCycle s))
  else
    match s.busy with
    | n + 1 => commandCycle n (nextCycle s)
    | 0 =>
      match presented (pinsNow s) with
      | some a => acceptCycle a (nextCycle s)
      | none => .next (endResponse (nextCycle s))

/-- The host has written `w` to CMD and this is the last cycle of the command, with nothing presented
on the pins (assumption 5). -/
def placeCommand (w : Word) (s : State) : State :=
  { s with cmd := w, inReset := false, busy := 1, hostIn := idlePins :: s.hostIn }

end Sys2Proof.Machine
end

