-- ==== Sys2Proof/Machine/Step.lean ====
section
/-! DEFINITION. The step of the machine: one clock cycle. -/

namespace Sys2Proof.Machine

/-- One rising edge of `clk` (20_memory.md R60). -/
def step (s : State) : Host.Outcome State Fault Refusal := clockCycle s

/-- `s` with the command word of `nbits` bits placed where the next step executes it: in CMD, with
the CMD write in its last cycle (10_state.md R30, 20_memory.md R62; assumption 5). -/
def State.withFetchWord (s : State) (nbits w : Nat) : State :=
  placeCommand (BitVec.ofNat 32 (w % 2 ^ nbits)) s

end Sys2Proof.Machine
end

