-- ==== Sys2Proof/Machine/HostProgram.lean ====
section
/-! DEFINITION. The host side of 30_encoding.md R89 to R91 and 41_hierarchy.md R147: the assembler,
host programs and their pseudo-instructions. The block sees only the accesses (R90). -/

namespace Sys2Proof.Machine

/-- The mnemonic of a command and its operand, if it takes one, as R89 writes them. -/
def assembly : Instr → String × Option Nat
  | .nop => ("NOP", none)
  | .pack z => ("PACK", some z)
  | .unpack => ("UNPACK", none)
  | .check => ("CHECK", none)
  | .getres => ("GETRES", none)
  | .parent p => ("PARENT", some p)
  | .children c => ("CHILDREN", some c)
  | .nextchild => ("NEXTCHILD", none)
  | .menc => ("MENC", none)
  | .mdec => ("MDEC", none)

/-- The assembler (R89) on a line read as a mnemonic and a decimal operand: it refuses an operand
above 31, an operand on a command that takes none and a missing operand (assumption 14). -/
def assemble (mnemonic : String) (operand : Option Nat) : Option Word :=
  let r := operand.getD 0
  ([.nop, .pack r, .unpack, .check, .getres, .parent r, .children r, .nextchild, .menc, .mdec].find?
    (fun i => decide (assembly i = (mnemonic, operand)) && i.wellFormed)).map encode

/-- The names of the window registers (20_memory.md R64). -/
def regName : WinReg → String
  | .cmd => "CMD"
  | .status => "STATUS"
  | .id => "ID"
  | .idxInLo => "IDX_IN_LO"
  | .idxInHi => "IDX_IN_HI"
  | .xIn => "X_IN"
  | .yIn => "Y_IN"
  | .resLo => "RES_LO"
  | .resHi => "RES_HI"
  | .xOut => "X_OUT"
  | .yOut => "Y_OUT"
  | .fOut => "F_OUT"
  | .chbLo => "CHB_LO"
  | .chbHi => "CHB_HI"
  | .chkLo => "CHK_LO"
  | .chkHi => "CHK_HI"
  | .chnLo => "CHN_LO"
  | .chnHi => "CHN_HI"

/-- The offset a name stands for (R90). -/
def offsetNamed (name : String) : Option Offset :=
  (windowRegs.find? (fun r => regName r == name)).map offsetOf

/-- A line of a host program (R90), register names already turned into offsets. -/
inductive HostLine where
  /-- `WR <name>, <imm32>`. -/
  | wr (a : Offset) (v : Word)
  /-- `RD <name>`. -/
  | rd (a : Offset)
  /-- `<label>:`. -/
  | label (l : String)
  /-- `IFBIT <k>, <label>`. -/
  | ifbit (k : Nat) (l : String)
  /-- `GOTO <label>`. -/
  | goto (l : String)
  /-- `HALT`. -/
  | halt
  deriving DecidableEq, Repr

/-- The registers that `RD64` names (R91). -/
inductive Reg64 where
  | idxIn | res | chb | chk | chn
  deriving DecidableEq, Repr

/-- The low and the high window register of a 64-bit register (R64). -/
def halvesOf : Reg64 → WinReg × WinReg
  | .idxIn => (.idxInLo, .idxInHi)
  | .res => (.resLo, .resHi)
  | .chb => (.chbLo, .chbHi)
  | .chk => (.chkLo, .chkHi)
  | .chn => (.chnLo, .chnHi)

/-- A command mnemonic on a line of its own (R91). -/
def hostCommand (i : Instr) : HostLine := .wr (offsetOf .cmd) (encode i)

/-- `WR64 IDX_IN, v` (R91). -/
def hostWr64 (v : Index) : List HostLine :=
  [.wr (offsetOf .idxInLo) (loWord v), .wr (offsetOf .idxInHi) (hiWord v)]

/-- `RD64 r` (R91). -/
def hostRd64 (r : Reg64) : List HostLine :=
  [.rd (offsetOf (halvesOf r).1), .rd (offsetOf (halvesOf r).2)]

/-- `TILE2CELL x, y, z` (R91). -/
def hostTile2Cell (x y : Word) (z : Nat) : List HostLine :=
  [.wr (offsetOf .xIn) x, .wr (offsetOf .yIn) y, hostCommand (.pack z), .rd (offsetOf .status)]
    ++ hostRd64 .res

/-- `CELL2TILE c` (R91). -/
def hostCell2Tile (c : Index) : List HostLine :=
  hostWr64 c
    ++ [hostCommand .unpack, .rd (offsetOf .xOut), .rd (offsetOf .yOut), .rd (offsetOf .fOut)]

/-- `ISVALID c` (R91). -/
def hostIsValid (c : Index) : List HostLine :=
  hostWr64 c ++ [hostCommand .check, .rd (offsetOf .status)]

/-- `CLRERR` (R91). -/
def hostClrErr : List HostLine := [.wr (offsetOf .status) 0x00000020#32]

/-- The host protocol for `cellToChildren` (41_hierarchy.md R147). -/
def hostChildren (cell : Index) (c : Nat) : List HostLine :=
  hostWr64 cell
    ++ [hostCommand (.children c), .rd (offsetOf .status), .ifbit 4 "fail",
        .label "loop", .rd (offsetOf .status), .ifbit 3 "more", .halt,
        .label "more", hostCommand .nextchild]
    ++ hostRd64 .res ++ [.goto "loop", .label "fail", .halt]

/-- A host running a program on the block. -/
structure HostRun where
  /-- The number of the next line. -/
  line : Nat
  /-- The value of the last read, if there was one (R90). -/
  lastRead : Option Word
  /-- The values read so far, the newest first. -/
  reads : List Word
  /-- The block. -/
  block : State
  deriving DecidableEq, Repr

/-- Why a host program stops. -/
inductive HostStop where
  /-- `HALT`. -/
  | halted
  /-- There is no such line or label: no program of R90. -/
  | noLine
  /-- `IFBIT` before any read: R90 gives it no value to test. -/
  | nothingRead
  /-- The block gave no next state. -/
  | blockStopped
  deriving DecidableEq, Repr

/-- The line after a label. DESIGN CHOICE: if the same label stands on several lines it is the first of
them, where R90 says nothing (assumption 15). -/
def lineOfLabel (prog : List HostLine) (l : String) : Except HostStop Nat :=
  match prog.findIdx? (· == .label l) with
  | some n => .ok (n + 1)
  | none => .error .noLine

/-- One access of the host: its effect on the block and the read data. -/
def hostAccess (a : Access) (s : State) : Except HostStop (State × Word) :=
  match access a s with
  | .next t => .ok (t, (t.rsp.map Response.rdata).getD 0)
  | .fault _ => .error .blockStopped
  | .refused _ => .error .blockStopped

/-- One line of a host program (R90), each access one atomic step of the block (20_memory.md R62).
DESIGN CHOICE: `IFBIT` of a bit above 31 does not go to its label, where R90 says nothing (assumption 15). -/
def hostStep (prog : List HostLine) (h : HostRun) : Except HostStop HostRun :=
  match prog[h.line]? with
  | none => .error .noLine
  | some .halt => .error .halted
  | some (.label _) => .ok { h with line := h.line + 1 }
  | some (.goto l) => (lineOfLabel prog l).map (fun n => { h with line := n })
  | some (.ifbit k l) =>
    match h.lastRead with
    | none => .error .nothingRead
    | some v =>
      if v.getLsbD k then (lineOfLabel prog l).map (fun n => { h with line := n })
      else .ok { h with line := h.line + 1 }
  | some (.wr a v) => (hostAccess (.write a v) h.block).map (fun p => { h with line := h.line + 1, block := p.1 })
  | some (.rd a) =>
    (hostAccess (.read a) h.block).map
      (fun p => { h with line := h.line + 1, lastRead := some p.2, reads := p.2 :: h.reads, block := p.1 })

/-- A host program run for at most `fuel` lines from a block: the run when it stopped or ran out, and
why it stopped. -/
def hostRun (prog : List HostLine) (fuel : Nat) (h : HostRun) : HostRun × Option HostStop :=
  match fuel with
  | 0 => (h, none)
  | n + 1 =>
    match hostStep prog h with
    | .ok h' => hostRun prog n h'
    | .error e => (h, some e)

/-- The start of a host program on a block. -/
def hostStart (s : State) : HostRun := { line := 0, lastRead := none, reads := [], block := s }

end Sys2Proof.Machine
end

