-- ==== Sys2Proof/Safety.lean ====
section
/-! DEFINITION. The terms statements use: the invariant of the block (10_state.md R31, R37, R41, the
port of 20_memory.md R60 to R62), repeated commands, and what a command reads and writes (R22, R43). -/

namespace Sys2Proof.Machine

/-- The error fields agree, and the flags of CHECK are nested (10_state.md R31, 60_exceptions.md R201,
R203, R204, 40_codec.md R108). -/
def StatusOk (s : State) : Prop :=
  s.ecode.toNat ≤ 4 ∧ (s.err = true ↔ s.ecode ≠ 0#4) ∧ (s.can = true → s.vc = true) ∧ (s.vc = true → s.vi = true)

/-- The reserved bits of F_OUT: 7:5, 11, 15:14 and 31:18 (10_state.md R29). -/
def fOutReserved : Word := 0xFFFCC8E0#32

/-- Reserved bits of F_OUT are 0 (R29, R37). -/
def FieldsOk (s : State) : Prop := s.fOut &&& fOutReserved = 0#32

/-- The iterator invariants (R41). While it is active, its count is a power of 4 reached within the
levels of the base, and the child bits of the base are clear (41_hierarchy.md R143). -/
def IteratorOk (s : State) : Prop :=
  (s.cha = true →
    resOf s.chBase ≤ 26 ∧ s.chK.toNat < s.chN.toNat
      ∧ ∃ d, 1 ≤ d ∧ d ≤ resOf s.chBase ∧ s.chN.toNat = 4 ^ d
        ∧ ∀ i, 52 - 2 * resOf s.chBase ≤ i → i < 52 - 2 * resOf s.chBase + 2 * d → s.chBase.getLsbD i = false)
    ∧ (s.cha = false → s.chK = s.chN)

/-- The port: a command in progress has fewer than `CMD_LATENCY` cycles to come and no response yet
(R62), a block held in reset has its reset registers (R230), an error response carries 0 (R76). -/
def PortOk (s : State) : Prop :=
  s.busy < Config.cmdLatency ∧ (s.busy ≠ 0 → s.rsp = none)
    ∧ (s.inReset = true → s = holdInReset s)
    ∧ ∀ r, s.rsp = some r → r.err = true → r.rdata = 0#32

/-- The invariant every step keeps. -/
def Inv (s : State) : Prop := StatusOk s ∧ FieldsOk s ∧ IteratorOk s ∧ PortOk s

/-- The state with the pins of `n` cycles taken off the host's list. -/
def skipPins (n : Nat) (s : State) : State := { s with hostIn := s.hostIn.drop n }

/-- `n` clock cycles, stopping where one gives no next state. -/
def stepRepeat : Nat → State → Host.Outcome State Fault Refusal
  | 0, s => .next s
  | n + 1, s =>
    match step s with
    | .next t => stepRepeat n t
    | .fault f => .fault f
    | .refused r => .refused r

/-- The same command `n` times, stopping where one gives no next state. -/
def execRepeat (i : Instr) : Nat → State → Host.Outcome State Fault Refusal
  | 0, s => .next s
  | n + 1, s =>
    match exec i s with
    | .next t => execRepeat i n t
    | .fault f => .fault f
    | .refused r => .refused r

/-- The block is out of reset and stays so in this cycle. -/
def Awake (s : State) : Prop := (pinsNow s).rstN = true ∧ s.inReset = false

/-- Two states agree on what a command reads (the column "read by commands" of R22, and R145). -/
def OperandsAgree (i : Instr) (s s' : State) : Prop :=
  match i with
  | .nop => True
  | .pack _ => s.xIn = s'.xIn ∧ s.yIn = s'.yIn
  | .unpack => s.idxIn = s'.idxIn
  | .check => s.idxIn = s'.idxIn
  | .getres => s.idxIn = s'.idxIn
  | .parent _ => s.idxIn = s'.idxIn
  | .children _ => s.idxIn = s'.idxIn
  | .nextchild => s.chBase = s'.chBase ∧ s.chK = s'.chK ∧ s.chN = s'.chN ∧ s.cha = s'.cha
  | .menc => s.xIn = s'.xIn ∧ s.yIn = s'.yIn
  | .mdec => s.idxIn = s'.idxIn

/-- Two states agree on what a command writes when it completes without error (R43). -/
def ResultsAgree (i : Instr) (t t' : State) : Prop :=
  match i with
  | .nop => True
  | .pack _ => t.res = t'.res
  | .unpack => t.xOut = t'.xOut ∧ t.yOut = t'.yOut ∧ t.fOut = t'.fOut
  | .check => t.vi = t'.vi ∧ t.vc = t'.vc ∧ t.can = t'.can ∧ t.fOut = t'.fOut
  | .getres => t.fOut = t'.fOut
  | .parent _ => t.res = t'.res
  | .children _ => t.chBase = t'.chBase ∧ t.chK = t'.chK ∧ t.chN = t'.chN ∧ t.cha = t'.cha
  | .nextchild => t.res = t'.res ∧ t.chK = t'.chK ∧ t.cha = t'.cha
  | .menc => t.res = t'.res
  | .mdec => t.xOut = t'.xOut ∧ t.yOut = t'.yOut

end Sys2Proof.Machine
end

