-- ==== Sys2Proof/Certificates/Slice0/Obligations.lean ====
section
/-! DEFINITION. The statements for the provers. Each cites the rules it formalises. A frame is written
as an equation of states: everything the equation does not name is unchanged. The block has no memory
(20_memory.md, opening), so a frame over the registers and the port is a frame over all of it. -/

open Sys2Proof Sys2Proof.Machine

/-! ## Encoding -/

/-- 30_encoding.md R84, R85, R89: a word decodes to a command exactly when it is the encoding of that
command and its operand is at most 31. -/
def Obligations.DecodesExactlyTheEncodings : Prop :=
  ∀ (w : Word) (i : Instr), decode w = .ok i ↔ (i.WellFormed ∧ encode i = w)

/-- R88: the three classes of illegal words, their sizes, and the 103 legal words. -/
def Obligations.LegalAndIllegalWordCounts : Prop :=
  {w : Word | z1Field w ≠ 0#19 ∨ z0Field w ≠ 0#4}.ncard = 2 ^ 32 - 2 ^ 9
    ∧ {w : Word | z1Field w = 0#19 ∧ z0Field w = 0#4 ∧ 0xA ≤ opField w}.ncard = 6 * 32
    ∧ {w : Word | z1Field w = 0#19 ∧ z0Field w = 0#4 ∧ opField w ∈ [0, 2, 3, 4, 7, 8, 9] ∧ rField w ≠ 0}.ncard = 7 * 31
    ∧ {w : Word | ∃ i, decode w = .ok i}.ncard = 103
    ∧ ∀ w : Word, (∃ e, decode w = .error e) ↔
        ((z1Field w ≠ 0#19 ∨ z0Field w ≠ 0#4)
          ∨ (z1Field w = 0#19 ∧ z0Field w = 0#4 ∧ 0xA ≤ opField w)
          ∨ (z1Field w = 0#19 ∧ z0Field w = 0#4 ∧ opField w ∈ [0, 2, 3, 4, 7, 8, 9] ∧ rField w ≠ 0))

/-- R80, R84: words written out bit by bit, `Z1 R Z0 OP`, and the commands they stand for. -/
def Obligations.SampleWordsDecode : Prop :=
  decode 0b00000000000000000000000000000000#32 = .ok .nop
    ∧ decode 0b00000000000000000000010000000001#32 = .ok (.pack 4)
    ∧ decode 0b00000000000000000000000000000010#32 = .ok .unpack
    ∧ decode 0b00000000000000000001111100000110#32 = .ok (.children 31)
    ∧ decode 0b00000000000000000000000000001001#32 = .ok .mdec
    ∧ decode 0b00000000000000000100010000000001#32 = .error .reservedBits
    ∧ decode 0b00000000000000000000000000001010#32 = .error .reservedOpcode
    ∧ decode 0b00000000000000000000000100000111#32 = .error .argumentNotTaken

/-- R89: the assembler gives a command its encoding when the operand is at most 31, else nothing; it
refuses an operand, whatever its value, on each of the seven commands that take none. -/
def Obligations.AssemblerGivesTheEncoding : Prop :=
  (∀ i : Instr, assemble (assembly i).1 (assembly i).2 = if i.wellFormed then some (encode i) else none)
    ∧ ∀ m ∈ ["NOP", "UNPACK", "CHECK", "GETRES", "NEXTCHILD", "MENC", "MDEC"], ∀ r, assemble m (some r) = none

/-! ## The step and the port -/

/-- 00_scope.md R10, 30_encoding.md R85: in the last cycle of a CMD write, a step executes the command
the word in CMD decodes to, ends the access with a response without error, and moves on to the next
cycle's pins. That the registers change in the last cycle is the model's inference (assumption 3). -/
def Obligations.StepRunsDecodedCommand : Prop :=
  ∀ (s : State) (i : Instr), Awake s → s.busy = 1 → decode s.cmd = .ok i →
    step s =
      match exec i (nextCycle s) with
      | .next t => .next { t with busy := 0, rsp := some { rdata := 0#32, err := false } }
      | .fault f => .fault f
      | .refused r => .refused r

/-- R83, R86, R87, 60_exceptions.md R203: a word with a reserved bit set, a reserved opcode, or R not 0
on a command that takes none reports ECODE 2 and changes nothing else of the registers; the write is
answered without a bus error. That the error fields change in the last cycle is the model's inference
(assumption 3); CommandWriteStoresAndExecutes says the same of the whole access, without it. -/
def Obligations.IllegalWordReportsCode2 : Prop :=
  ∀ s : State, Awake s → s.busy = 1 →
    ((∃ i, ((4 ≤ i ∧ i ≤ 7) ∨ (13 ≤ i ∧ i ≤ 31)) ∧ s.cmd.getLsbD i = true)
      ∨ 0xA ≤ s.cmd.toNat % 16
      ∨ (s.cmd.toNat % 16 ∉ [1, 5, 6] ∧ s.cmd.toNat / 256 % 32 ≠ 0)) →
    step s =
      .next { s with
        err := true, ecode := 2#4, errs := true, busy := 0, rsp := some { rdata := 0#32, err := false },
        hostIn := s.hostIn.tail }

/-- 10_state.md R30, 30_encoding.md R85, 60_exceptions.md R203: a CMD write, as one access, stores the
word, legal or not, then executes the command it selects; if it selects none, it reports ECODE 2 and
changes no other register. -/
def Obligations.CommandWriteStoresAndExecutes : Prop :=
  ∀ (s : State) (w : Word),
    (∃ t, access (.write 0x00#8 w) s = .next t ∧ t.cmd = w ∧ t.busy = 0
        ∧ t.rsp = some { rdata := 0#32, err := false })
      ∧ (∀ i, decode w = .ok i → ∀ u, exec i { s with cmd := w } = .next u →
          access (.write 0x00#8 w) s = .next { u with busy := 0, rsp := some { rdata := 0#32, err := false } })
      ∧ ∀ e, decode w = .error e →
          access (.write 0x00#8 w) s =
            .next { s with
              cmd := w, err := true, ecode := 2#4, errs := true, busy := 0,
              rsp := some { rdata := 0#32, err := false } }

/-- 20_memory.md R62, R71, 70_reset_and_hazards.md R245: a CMD write presented to an idle block, with no
reset before its response, gives after `CMD_LATENCY` cycles the state of the access as one atomic step;
in every cycle between, `req_ready` and `rsp_valid` are 0 whatever the pins present. For every value of
`CMD_LATENCY`. That the idle block is ready is the model's inference (assumption 2). -/
def Obligations.CommandWriteCompletesAfterLatency : Prop :=
  ∀ (s : State) (v : Word), Awake s → s.busy = 0 → presented (pinsNow s) = some (.write 0x00#8 v) →
    (∀ k, k < Config.cmdLatency → (s.hostIn.getD k idlePins).rstN = true) →
    stepRepeat Config.cmdLatency s
        = access (.write 0x00#8 v) (skipPins Config.cmdLatency s)
      ∧ ∀ k, 0 < k → k < Config.cmdLatency →
          ∃ t : State, stepRepeat k s = .next t ∧ reqReady t = false ∧ portResponse t = none

/-- R62, R245: a read or a write that starts no command, presented to an idle block, is answered in the
next cycle. That the idle block is ready is the model's inference (assumption 2). -/
def Obligations.OtherAccessAnsweredNextCycle : Prop :=
  ∀ (s : State) (a : Access), Awake s → s.busy = 0 → presented (pinsNow s) = some a →
    (∀ v, a ≠ .write 0x00#8 v) →
    step s = access a (nextCycle s) ∧ ∃ t r, step s = .next t ∧ t.busy = 0 ∧ t.rsp = some r

/-- R61, R62: in a waiting cycle of a command `req_ready` is 0, whatever is presented is not accepted,
and only the cycle count moves. In a cycle with nothing presented nothing but the response ends. That no
register of a command changes in a waiting cycle is the model's inference (assumption 3). -/
def Obligations.WaitingAndIdleCyclesChangeNothing : Prop :=
  (∀ (s : State) (n : Nat), Awake s → s.busy = n + 2 →
      reqReady s = false ∧ step s = .next { s with busy := n + 1, rsp := none, hostIn := s.hostIn.tail })
    ∧ ∀ s : State, Awake s → s.busy = 0 → (pinsNow s).reqValid = false →
        step s = .next { s with rsp := none, hostIn := s.hostIn.tail }

/-- 70_reset_and_hazards.md R230, R231, 20_memory.md R61: a cycle with `rst_n` 0 accepts and answers
nothing and puts every register at its reset value, losing an access in progress; the first cycle with
`rst_n` 1 after it accepts nothing either and leaves reset (assumption 13). -/
def Obligations.ResetCycleRestoresResetState : Prop :=
  (∀ s : State, (pinsNow s).rstN = false →
      reqReady s = false ∧ portResponse s = none
        ∧ step s = .next { State.reset with inReset := true, hostIn := s.hostIn.tail })
    ∧ ∀ h : List Pins, (h.headD idlePins).rstN = true →
        reqReady { State.reset with inReset := true, hostIn := h } = false
          ∧ step { State.reset with inReset := true, hostIn := h }
            = .next { State.reset with hostIn := h.tail }

/-- No step stops the machine: every word selects a command or raises IllegalCommand (30_encoding.md R85),
every error of a command leaves a next state (60_exceptions.md R200, R203), and a bus error is a response
(20_memory.md R76). That from these no step ever stops is the model's inference (assumption 11). -/
def Obligations.EveryStepAnswersNext : Prop := ∀ s : State, ∃ t, step s = .next t

/-- 10_state.md R29, R31, R37, R41, 60_exceptions.md R201, 20_memory.md R62: the block's invariant is kept
by every step, from every state. -/
def Obligations.EveryStepKeepsInvariant : Prop := ∀ s t : State, Inv s → step s = .next t → Inv t

/-- The invariant holds after reset (70_reset_and_hazards.md R231, 10_state.md R41). -/
def Obligations.ResetSatisfiesInvariant : Prop := Inv State.reset

/-! ## The register window -/

/-- 20_memory.md R76: a misaligned access gets `rsp_err = 1` and data 0 and changes no state, STATUS
among it; no aligned access gets an error. -/
def Obligations.MisalignedAccessRefused : Prop :=
  (∀ (s : State) (a : Offset) (v : Word), (a.getLsbD 0 = true ∨ a.getLsbD 1 = true) →
      access (.read a) s = .next { s with busy := 0, rsp := some { rdata := 0#32, err := true } }
        ∧ access (.write a v) s = .next { s with busy := 0, rsp := some { rdata := 0#32, err := true } })
    ∧ ∀ (s : State) (a : Offset) (v : Word), a.getLsbD 0 = false → a.getLsbD 1 = false →
        (∃ t r, access (.read a) s = .next t ∧ t.rsp = some r ∧ r.err = false)
          ∧ ∃ t r, access (.write a v) s = .next t ∧ t.rsp = some r ∧ r.err = false

/-- R69: reserved offsets read 0 and ignore writes, writes to read-only registers are ignored, and none
of these is a bus error. -/
def Obligations.ReservedAndReadOnlyOffsets : Prop :=
  (∀ (s : State) (a : Offset), (a = 0x0C#8 ∨ a = 0x34#8 ∨ (0x50 ≤ a.toNat ∧ a.toNat % 4 = 0)) →
      access (.read a) s = .next { s with busy := 0, rsp := some { rdata := 0#32, err := false } })
    ∧ ∀ (s : State) (a : Offset) (v : Word),
        (a = 0x0C#8 ∨ a = 0x34#8 ∨ (0x50 ≤ a.toNat ∧ a.toNat % 4 = 0)
          ∨ a ∈ [0x08#8, 0x20#8, 0x24#8, 0x28#8, 0x2C#8, 0x30#8, 0x38#8, 0x3C#8, 0x40#8, 0x44#8, 0x48#8, 0x4C#8]) →
        access (.write a v) s = .next { s with busy := 0, rsp := some { rdata := 0#32, err := false } }

/-- 10_state.md R23, R24, R25, 20_memory.md R65, R67: a word written to an operand offset reads back, the
other offsets of the window read as before, and the other half of IDX_IN is kept. -/
def Obligations.WrittenOperandReadsBack : Prop :=
  ∀ (s : State) (a : Offset) (v : Word), a ∈ [0x10#8, 0x14#8, 0x18#8, 0x1C#8] →
    ∃ t, access (.write a v) s = .next t
      ∧ t = { s with
          idxIn := t.idxIn, xIn := t.xIn, yIn := t.yIn, busy := 0, rsp := some { rdata := 0#32, err := false } }
      ∧ (∀ b : Offset, access (.read b) t =
          .next { t with rsp := some (if b = a then { rdata := v, err := false } else readResponse b s) })
      ∧ (a = 0x10#8 → t.idxIn.toNat = s.idxIn.toNat / 2 ^ 32 * 2 ^ 32 + v.toNat)
      ∧ (a = 0x14#8 → t.idxIn.toNat = v.toNat * 2 ^ 32 + s.idxIn.toNat % 2 ^ 32)

/-- 10_state.md R32: a write to STATUS clears ERRS if bit 5 is set and does nothing else. -/
def Obligations.StatusWriteClearsOnlyErrs : Prop :=
  ∀ (s : State) (v : Word),
    access (.write 0x04#8 v) s =
      .next { s with
        errs := if v.getLsbD 5 then false else s.errs, busy := 0, rsp := some { rdata := 0#32, err := false } }

/-- 10_state.md R31, R37: the layout of STATUS as a read of offset 0x04 returns it; its reserved bits
read 0. -/
def Obligations.StatusReadLayout : Prop :=
  ∀ s : State, ∃ r : Word,
    access (.read 0x04#8) s = .next { s with busy := 0, rsp := some { rdata := r, err := false } }
      ∧ r.getLsbD 0 = s.vi ∧ r.getLsbD 1 = s.vc ∧ r.getLsbD 2 = s.can ∧ r.getLsbD 3 = s.cha
      ∧ r.getLsbD 4 = s.err ∧ r.getLsbD 5 = s.errs
      ∧ (∀ i, i < 4 → r.getLsbD (8 + i) = s.ecode.getLsbD i)
      ∧ ∀ i, (i = 6 ∨ i = 7 ∨ 12 ≤ i) → r.getLsbD i = false

/-- 20_memory.md R66, R64, R65, 10_state.md R33: a read changes nothing but the response; CMD, the
operands and the results are read at their offsets, a 64-bit register as its low word and, 4 higher, its
high word; ID reads its constant. -/
def Obligations.ReadsReturnRegistersAndChangeNothing : Prop :=
  ∀ s : State, ∃ f : Offset → Word,
    (∀ a : Offset, a.toNat % 4 = 0 →
        access (.read a) s = .next { s with busy := 0, rsp := some { rdata := f a, err := false } })
      ∧ f 0x00#8 = s.cmd ∧ f 0x08#8 = 0x51420701#32 ∧ f 0x18#8 = s.xIn ∧ f 0x1C#8 = s.yIn
      ∧ f 0x28#8 = s.xOut ∧ f 0x2C#8 = s.yOut ∧ f 0x30#8 = s.fOut
      ∧ (f 0x10#8).toNat + (f 0x14#8).toNat * 2 ^ 32 = s.idxIn.toNat
      ∧ (f 0x20#8).toNat + (f 0x24#8).toNat * 2 ^ 32 = s.res.toNat
      ∧ (f 0x38#8).toNat + (f 0x3C#8).toNat * 2 ^ 32 = s.chBase.toNat
      ∧ (f 0x40#8).toNat + (f 0x44#8).toNat * 2 ^ 32 = s.chK.toNat
      ∧ (f 0x48#8).toNat + (f 0x4C#8).toNat * 2 ^ 32 = s.chN.toNat

/-- 20_memory.md R70: an access other than a CMD write, done twice, leaves the state it left once. -/
def Obligations.NonCommandAccessIsIdempotent : Prop :=
  ∀ (s t : State) (a : Access), (∀ v, a ≠ .write 0x00#8 v) → access a s = .next t → access a t = .next t

/-! ## Errors and completion -/

/-- 60_exceptions.md R200, R201, R203: a command that ends with ERR set has changed ERR, ECODE and ERRS
only, and its code is 1, 3 or 4 (2 is the decoder's). -/
def Obligations.FailedCommandWritesOnlyErrorFields : Prop :=
  ∀ (i : Instr) (s t : State), exec i s = .next t → t.err = true →
    t = { s with err := true, ecode := t.ecode, errs := true } ∧ (t.ecode = 1#4 ∨ t.ecode = 3#4 ∨ t.ecode = 4#4)

/-- 10_state.md R43: a command that completes with an error writes only ERR, ECODE and ERRS; and the
writer table, one line per command that completes without error. Everything a line does not name is
unchanged, IDX_IN, X_IN, Y_IN and CMD always; ID is no state. -/
def Obligations.WriterTable : Prop :=
  ∀ (i : Instr) (s t : State), exec i s = .next t →
    (t.err = true → t = { s with err := true, ecode := t.ecode, errs := true }) ∧
    (t.err = false →
    match i with
    | .nop => t = { s with err := false, ecode := 0#4 }
    | .pack _ => t = { s with res := t.res, err := false, ecode := 0#4 }
    | .unpack => t = { s with xOut := t.xOut, yOut := t.yOut, fOut := t.fOut, err := false, ecode := 0#4 }
    | .check => t = { s with fOut := t.fOut, vi := t.vi, vc := t.vc, can := t.can, err := false, ecode := 0#4 }
    | .getres => t = { s with fOut := t.fOut, err := false, ecode := 0#4 }
    | .parent _ => t = { s with res := t.res, err := false, ecode := 0#4 }
    | .children _ =>
      t = { s with cha := true, chBase := t.chBase, chK := t.chK, chN := t.chN, err := false, ecode := 0#4 }
    | .nextchild =>
      t = { s with
        res := t.res, chK := t.chK, cha := if t.chK = s.chN then false else s.cha, err := false, ecode := 0#4 }
    | .menc => t = { s with res := t.res, err := false, ecode := 0#4 }
    | .mdec => t = { s with xOut := t.xOut, yOut := t.yOut, err := false, ecode := 0#4 })

/-- 10_state.md R36, 60_exceptions.md R203, R204: ERRS accumulates, and ECODE is 0 exactly when ERR is. -/
def Obligations.ErrsAccumulates : Prop :=
  ∀ (i : Instr) (s t : State), exec i s = .next t →
    t.errs = (s.errs || t.err) ∧ (t.ecode = 0#4 ↔ t.err = false)

/-- 00_scope.md R10, 10_state.md R22: a command is a function of the operands it reads. From two states
that agree on them it ends with the same error or with the same results. -/
def Obligations.CommandDependsOnItsOperandsOnly : Prop :=
  ∀ (i : Instr) (s s' : State), OperandsAgree i s s' →
    ∃ t t', exec i s = .next t ∧ exec i s' = .next t' ∧ t.err = t'.err ∧ t.ecode = t'.ecode
      ∧ (t.err = false → ResultsAgree i t t')

/-- 43_control.md R181: NOP completes in every state, clears ERR and ECODE and changes nothing else. -/
def Obligations.NopClearsErrOnly : Prop :=
  ∀ s : State, exec .nop s = .next { s with err := false, ecode := 0#4 }

/-! ## Interleave functions -/

/-- 40_codec.md R110: spread32 puts bit i at bit 2i and 0 at bit 2i+1, and the interleave puts x in the
even and y in the odd bits. -/
def Obligations.SpreadPlacesBits : Prop :=
  (∀ v : Index, v.toNat < 2 ^ 32 → ∀ i, i < 32 →
      (spread32 v).getLsbD (2 * i) = v.getLsbD i ∧ (spread32 v).getLsbD (2 * i + 1) = false)
    ∧ ∀ x y : Index, x.toNat < 2 ^ 32 → y.toNat < 2 ^ 32 → ∀ i, i < 32 →
        (spread32 x ||| spread32 y <<< 1).getLsbD (2 * i) = x.getLsbD i
          ∧ (spread32 x ||| spread32 y <<< 1).getLsbD (2 * i + 1) = y.getLsbD i

/-- R112: compact32 takes the even bits, its result is below 2^32, the odd bits have no effect, and it
inverts spread32. -/
def Obligations.CompactTakesEvenBits : Prop :=
  (∀ v : Index, (compact32 v).toNat < 2 ^ 32 ∧ ∀ i, i < 32 → (compact32 v).getLsbD i = v.getLsbD (2 * i))
    ∧ (∀ v w : Index, (∀ i, i < 32 → v.getLsbD (2 * i) = w.getLsbD (2 * i)) → compact32 v = compact32 w)
    ∧ ∀ a : Index, a.toNat < 2 ^ 32 → compact32 (spread32 a) = a

/-! ## PACK and UNPACK -/

/-- 40_codec.md R117, R116: PACK of a legal tile completes, writes RES only, and RES is the closed form,
which as an OR and as a sum is the same value, so its terms occupy disjoint bits; bit j of x goes to bit
2(j + 32 − z) of the code m and the 12 bits shifted out of m are 0. -/
def Obligations.PackClosedForm : Prop :=
  ∀ (s : State) (z : Nat), z ≤ 26 → s.xIn.toNat < 2 ^ z → s.yIn.toNat < 2 ^ z →
    ∃ t, exec (.pack z) s = .next t ∧ t = { s with res := t.res, err := false, ecode := 0#4 }
      ∧ t.res.toNat = 2 ^ 62 + 2 ^ 59 + z * 2 ^ 52
          + ((List.range z).map (fun j =>
              (s.xIn.getLsbD j).toNat * 2 ^ (52 - 2 * z + 2 * j)
                + (s.yIn.getLsbD j).toNat * 2 ^ (53 - 2 * z + 2 * j))).sum
          + (2 ^ (52 - 2 * z) - 1)
      ∧ t.res = 1#64 <<< 62 ||| 1#64 <<< 59 ||| BitVec.ofNat 64 z <<< 52
          ||| interleave (alignLane z s.xIn) (alignLane z s.yIn) >>> 12 ||| 0x000FFFFFFFFFFFFF#64 >>> (2 * z)
      ∧ (∀ j, j < z →
          t.res.getLsbD (2 * j + 52 - 2 * z) = s.xIn.getLsbD j ∧ t.res.getLsbD (2 * j + 53 - 2 * z) = s.yIn.getLsbD j
            ∧ (interleave (alignLane z s.xIn) (alignLane z s.yIn)).getLsbD (2 * (j + 32 - z)) = s.xIn.getLsbD j)
      ∧ ∀ i, i < 12 → (interleave (alignLane z s.xIn) (alignLane z s.yIn)).getLsbD i = false

/-- R116, 60_exceptions.md R205: PACK of a resolution above 26 reports InvalidResolution, whatever the
coordinates; PACK of a coordinate at or above 2^z reports TileRange; nothing else changes. -/
def Obligations.PackRefusals : Prop :=
  ∀ (s : State) (z : Nat),
    (26 < z → exec (.pack z) s = .next { s with err := true, ecode := 1#4, errs := true })
      ∧ (z ≤ 26 → (2 ^ z ≤ s.xIn.toNat ∨ 2 ^ z ≤ s.yIn.toNat) →
          exec (.pack z) s = .next { s with err := true, ecode := 3#4, errs := true })

/-- R115: UNPACK completes for every IDX_IN, writes X_OUT, Y_OUT and F_OUT only, and each bit of X_OUT
and Y_OUT is the closed form, for every value of the resolution field. -/
def Obligations.UnpackClosedForm : Prop :=
  ∀ s : State, ∃ t, exec .unpack s = .next t
    ∧ t = { s with xOut := t.xOut, yOut := t.yOut, fOut := fieldsWord s.idxIn, err := false, ecode := 0#4 }
    ∧ (s.idxIn = 0xFFFFFFFFFFFFFFFF#64 →
        t.xOut = 0x7FFFFFE0#32 ∧ t.yOut = 0x7FFFFFE0#32 ∧ t.fOut = 0x0003371F#32)
    ∧ ∀ j, j < 32 →
        t.xOut.getLsbD j =
            (if j < resOf s.idxIn ∧ 2 * resOf s.idxIn ≤ 2 * j + 52
              then s.idxIn.getLsbD (2 * j + 52 - 2 * resOf s.idxIn) else false)
          ∧ t.yOut.getLsbD j =
            (if j < resOf s.idxIn ∧ 2 * resOf s.idxIn ≤ 2 * j + 53
              then s.idxIn.getLsbD (2 * j + 53 - 2 * resOf s.idxIn) else false)

/-- R118: UNPACK of the RES of PACK gives the tile back; PACK of UNPACK(v) gives v back exactly when v is
a canonical cell, and a valid cell with EXTRA bits comes back with EXTRA 0. -/
def Obligations.PackUnpackRoundTrip : Prop :=
  (∀ (s : State) (z : Nat), z ≤ 26 → s.xIn.toNat < 2 ^ z → s.yIn.toNat < 2 ^ z →
      ∃ t, exec (.pack z) s = .next t ∧ t.err = false
        ∧ ∀ u : State, u.idxIn = t.res →
            ∃ w, exec .unpack u = .next w ∧ w.err = false ∧ w.xOut = s.xIn ∧ w.yOut = s.yIn
              ∧ w.fOut.toNat % 32 = z)
    ∧ ∀ s t u : State, exec .unpack s = .next t → u.xIn = t.xOut → u.yIn = t.yOut →
        ((∃ w, exec (.pack (resOf s.idxIn)) u = .next w ∧ w.err = false ∧ w.res = s.idxIn)
            ↔ canonicalCell s.idxIn = true)
          ∧ (validCell s.idxIn = true →
              ∃ w, exec (.pack (resOf s.idxIn)) u = .next w ∧ w.err = false
                ∧ w.res = s.idxIn &&& ~~~(0x3#64 <<< 57))

/-! ## CHECK and GETRES -/

/-- R107, R108, R119: CHECK completes for every IDX_IN and writes VI, VC, CAN and F_OUT only; VI is set
exactly when bit 63 is 0, the header bit is 1, the mode is not 7, the resolution is at most 26 and every
footer bit is 1; VC asks for mode 1 too, and CAN for EXTRA 0. -/
def Obligations.CheckWritesThePredicates : Prop :=
  ∀ s : State, ∃ t, exec .check s = .next t
    ∧ t = { s with
        vi := t.vi, vc := t.vc, can := t.can, fOut := fieldsWord s.idxIn, err := false, ecode := 0#4 }
    ∧ (t.vi = true ↔
        s.idxIn.getLsbD 63 = false ∧ s.idxIn.getLsbD 62 = true ∧ s.idxIn.toNat / 2 ^ 59 % 8 ≠ 7
          ∧ resOf s.idxIn ≤ 26 ∧ ∀ i, i + 2 * resOf s.idxIn < 52 → s.idxIn.getLsbD i = true)
    ∧ (t.vc = true ↔ t.vi = true ∧ s.idxIn.toNat / 2 ^ 59 % 8 = 1)
    ∧ (t.can = true ↔ t.vc = true ∧ s.idxIn.getLsbD 58 = false ∧ s.idxIn.getLsbD 57 = false)

/-- R113, R121, 10_state.md R29: GETRES completes for every IDX_IN and writes F_OUT only, with Z, MODE,
EXTRA, HDR and TOP in their places and every other bit 0. -/
def Obligations.GetresShowsTheFields : Prop :=
  ∀ s : State, ∃ t, exec .getres s = .next t ∧ t = { s with fOut := t.fOut, err := false, ecode := 0#4 }
    ∧ (∀ i, i < 5 → t.fOut.getLsbD i = s.idxIn.getLsbD (52 + i))
    ∧ (∀ i, i < 3 → t.fOut.getLsbD (8 + i) = s.idxIn.getLsbD (59 + i))
    ∧ (∀ i, i < 2 → t.fOut.getLsbD (12 + i) = s.idxIn.getLsbD (57 + i))
    ∧ t.fOut.getLsbD 16 = s.idxIn.getLsbD 62 ∧ t.fOut.getLsbD 17 = s.idxIn.getLsbD 63
    ∧ ∀ i, ((5 ≤ i ∧ i ≤ 7) ∨ i = 11 ∨ i = 14 ∨ i = 15 ∨ 18 ≤ i) → t.fOut.getLsbD i = false

/-- R120: CHECK of a RES that PACK writes sets VI, VC and CAN; VC is clear for 0 and for any index
missing the header bit or a footer bit. -/
def Obligations.PackResultIsCanonical : Prop :=
  (∀ (s t u : State) (z : Nat), exec (.pack z) s = .next t → t.err = false → u.idxIn = t.res →
      ∃ w, exec .check u = .next w ∧ w.vi = true ∧ w.vc = true ∧ w.can = true)
    ∧ ∀ s t : State, exec .check s = .next t →
        (s.idxIn = 0#64 ∨ s.idxIn.getLsbD 62 = false
          ∨ ∃ i, i + 2 * resOf s.idxIn < 52 ∧ s.idxIn.getLsbD i = false) →
        t.vc = false

/-! ## PARENT, CHILDREN, NEXTCHILD -/

/-- 41_hierarchy.md R141: PARENT p completes when p is at most 26 and at most the resolution, and writes
RES only: bits 63 to 57 and the position bits of levels below p kept, the resolution p, the footer ones. Of
a valid cell it is the valid cell of the tile shifted right, with the same EXTRA bits. -/
def Obligations.ParentClosedForm : Prop :=
  ∀ (s : State) (p : Nat), p ≤ 26 → p ≤ resOf s.idxIn →
    ∃ t, exec (.parent p) s = .next t ∧ t = { s with res := t.res, err := false, ecode := 0#4 }
      ∧ (∀ i, 57 ≤ i → i ≤ 63 → t.res.getLsbD i = s.idxIn.getLsbD i)
      ∧ t.res.toNat / 2 ^ 52 % 32 = p
      ∧ (∀ i, 52 - 2 * p ≤ i → i ≤ 51 → t.res.getLsbD i = s.idxIn.getLsbD i)
      ∧ (∀ i, i + 2 * p ≤ 51 → t.res.getLsbD i = true)
      ∧ (validCell s.idxIn = true →
          validCell t.res = true ∧ extraField t.res = extraField s.idxIn
            ∧ unpackX t.res = unpackX s.idxIn >>> (resOf s.idxIn - p)
            ∧ unpackY t.res = unpackY s.idxIn >>> (resOf s.idxIn - p))

/-- R140: PARENT of a resolution above 26 or above that of IDX_IN reports InvalidResolution and changes
nothing else. -/
def Obligations.ParentRefusals : Prop :=
  ∀ (s : State) (p : Nat), (26 < p ∨ resOf s.idxIn < p) →
    exec (.parent p) s = .next { s with err := true, ecode := 1#4, errs := true }

/-- R142: idempotence, composition, and the class of the result is that of the operand. -/
def Obligations.ParentLaws : Prop :=
  (∀ s : State, validIndex s.idxIn = true →
      ∃ t, exec (.parent (resOf s.idxIn)) s = .next t ∧ t.err = false ∧ t.res = s.idxIn)
    ∧ (∀ (s u : State) (p q : Nat), validIndex s.idxIn = true → p ≤ q → q ≤ resOf s.idxIn →
        ∃ t, exec (.parent q) s = .next t ∧ t.err = false
          ∧ (u.idxIn = t.res →
              ∃ w w', exec (.parent p) u = .next w ∧ exec (.parent p) s = .next w'
                ∧ w.err = false ∧ w'.err = false ∧ w.res = w'.res))
    ∧ ∀ (s t : State) (p : Nat), exec (.parent p) s = .next t → t.err = false →
        (validIndex s.idxIn = true → validIndex t.res = true ∧ resOf t.res = p)
          ∧ (validCell s.idxIn = true → validCell t.res = true)
          ∧ (canonicalCell s.idxIn = true → canonicalCell t.res = true)

/-- R143: CHILDREN c completes when c is at most 26 and above the resolution of IDX_IN, and writes the
iterator only: 4^(c - z) children from number 0, the base with resolution c and the new position bits
clear, every other bit of IDX_IN kept. -/
def Obligations.ChildrenArmsTheIterator : Prop :=
  ∀ (s : State) (c : Nat), c ≤ 26 → resOf s.idxIn < c →
    ∃ t, exec (.children c) s = .next t
      ∧ t = { s with chBase := t.chBase, chK := 0#64, chN := t.chN, cha := true, err := false, ecode := 0#4 }
      ∧ t.chN.toNat = 4 ^ (c - resOf s.idxIn)
      ∧ t.chBase.toNat / 2 ^ 52 % 32 = c
      ∧ (∀ i, 57 ≤ i → i ≤ 63 → t.chBase.getLsbD i = s.idxIn.getLsbD i)
      ∧ (∀ i, 52 - 2 * resOf s.idxIn ≤ i → i ≤ 51 → t.chBase.getLsbD i = s.idxIn.getLsbD i)
      ∧ (∀ i, 52 - 2 * c ≤ i → i < 52 - 2 * resOf s.idxIn → t.chBase.getLsbD i = false)
      ∧ ∀ i, i < 52 - 2 * c → t.chBase.getLsbD i = s.idxIn.getLsbD i

/-- R143: CHILDREN of a resolution above 26 or not above that of IDX_IN reports InvalidResolution and
leaves the iterator and everything else. -/
def Obligations.ChildrenRefusalKeepsIterator : Prop :=
  ∀ (s : State) (c : Nat), (26 < c ∨ c ≤ resOf s.idxIn) →
    exec (.children c) s = .next { s with err := true, ecode := 1#4, errs := true }

/-- R145: NEXTCHILD with an active iterator completes and writes RES, CH_K and CHA only: RES is the base
with the child number at the child shift, CH_K moves on, CHA falls exactly at the last child. The value of
RES is stated for a base whose resolution is legal, as R41 has it while the iterator is active. -/
def Obligations.NextchildHandsOutTheChild : Prop :=
  ∀ s : State, s.cha = true →
    ∃ t, exec .nextchild s = .next t
      ∧ t = { s with
          res := t.res, chK := s.chK + 1#64, cha := if s.chK + 1#64 = s.chN then false else true, err := false, ecode := 0#4 }
      ∧ (resOf s.chBase ≤ 26 → ∀ i, i < 64 →
          t.res.getLsbD i =
            (s.chBase.getLsbD i
              || (decide (52 ≤ i + 2 * resOf s.chBase) && s.chK.getLsbD (i + 2 * resOf s.chBase - 52))))

/-- R145, 60_exceptions.md R201: NEXTCHILD with no active iteration reports NoIteration and changes
nothing else. -/
def Obligations.NextchildWithoutIteration : Prop :=
  ∀ s : State, s.cha = false →
    exec .nextchild s = .next { s with err := true, ecode := 4#4, errs := true }

/-- R144: child number k is the base with k at the child shift; the 64-bit values rise with k; of a valid
cell of tile (x, y, z) it is the valid cell of the tile whose coordinates the even and odd bits of k
extend. -/
def Obligations.ChildTileFormula : Prop :=
  ∀ (s t : State) (c : Nat), exec (.children c) s = .next t → t.err = false →
    (∀ k : Index, k.toNat < 4 ^ (c - resOf s.idxIn) →
        ∃ u, exec .nextchild { t with chK := k } = .next u ∧ u.err = false
          ∧ u.res = t.chBase ||| k <<< (52 - 2 * c)
          ∧ (validCell s.idxIn = true →
              validCell u.res = true ∧ resOf u.res = c
                ∧ (unpackX u.res).toNat =
                    (unpackX s.idxIn).toNat * 2 ^ (c - resOf s.idxIn) + (compact32 k).toNat
                ∧ (unpackY u.res).toNat =
                    (unpackY s.idxIn).toNat * 2 ^ (c - resOf s.idxIn) + (compact32 (k >>> 1)).toNat))
      ∧ ∀ j k : Index, j.toNat < k.toNat → k.toNat < 4 ^ (c - resOf s.idxIn) →
          (t.chBase ||| j <<< (52 - 2 * c)).toNat < (t.chBase ||| k <<< (52 - 2 * c)).toNat

/-- R146: after CHILDREN c, exactly 4^(c - z) NEXTCHILD commands complete; their RES values rise, so they
are distinct; PARENT z of each gives IDX_IN back if its footer is all ones; of a valid cell each is a valid
cell of resolution c; after the last CHA is 0 and CH_K = CH_N, and one more reports NoIteration. The
commands follow each other directly. -/
def Obligations.EnumerationLaws : Prop :=
  ∀ (s t : State) (c : Nat), c ≤ 26 → resOf s.idxIn < c → exec (.children c) s = .next t →
    (∀ k, k < 4 ^ (c - resOf s.idxIn) →
        ∃ u, execRepeat .nextchild (k + 1) t = .next u ∧ u.err = false
          ∧ ((∀ i, i + 2 * resOf s.idxIn < 52 → s.idxIn.getLsbD i = true) →
              ∀ w : State, w.idxIn = u.res →
                ∃ x, exec (.parent (resOf s.idxIn)) w = .next x ∧ x.err = false ∧ x.res = s.idxIn)
          ∧ (validCell s.idxIn = true → validCell u.res = true ∧ resOf u.res = c))
      ∧ (∀ (j k : Nat) (u w : State), j < k → k < 4 ^ (c - resOf s.idxIn) →
          execRepeat .nextchild (j + 1) t = .next u → execRepeat .nextchild (k + 1) t = .next w →
          u.res.toNat < w.res.toNat)
      ∧ ∃ u, execRepeat .nextchild (4 ^ (c - resOf s.idxIn)) t = .next u
          ∧ u.cha = false ∧ u.chK = u.chN ∧ u.chN.toNat = 4 ^ (c - resOf s.idxIn)
          ∧ exec .nextchild u = .next { u with err := true, ecode := 4#4, errs := true }

/-- 10_state.md R41: no command but CHILDREN and NEXTCHILD, and no access that starts no command, changes
the iterator. -/
def Obligations.OnlyTwoCommandsMoveTheIterator : Prop :=
  (∀ (i : Instr) (s t : State), i ≠ .nextchild → (∀ c, i ≠ .children c) → exec i s = .next t →
      t.chBase = s.chBase ∧ t.chK = s.chK ∧ t.chN = s.chN ∧ t.cha = s.cha)
    ∧ ∀ (a : Access) (s t : State), (∀ v, a ≠ .write 0x00#8 v) → access a s = .next t →
        t.chBase = s.chBase ∧ t.chK = s.chK ∧ t.chN = s.chN ∧ t.cha = s.cha

/-! ## MENC and MDEC -/

/-- 42_morton.md R172: MENC completes for every X_IN and Y_IN, writes RES only, and RES has x in its even
and y in its odd bits; it is a bijection of pairs onto 64-bit values; and PACK of a legal tile is MENC of
the aligned lanes, shifted right by 12 under the tag fields and the footer. -/
def Obligations.MencLaw : Prop :=
  (∀ s : State, ∃ t, exec .menc s = .next t ∧ t = { s with res := t.res, err := false, ecode := 0#4 }
      ∧ ∀ i, i < 32 → t.res.getLsbD (2 * i) = s.xIn.getLsbD i ∧ t.res.getLsbD (2 * i + 1) = s.yIn.getLsbD i)
    ∧ (∀ v : Index, ∃! xy : Word × Word, ∀ s : State, s.xIn = xy.1 → s.yIn = xy.2 →
        ∃ t, exec .menc s = .next t ∧ t.res = v)
    ∧ ∀ (s t u v : State) (z : Nat), z ≤ 26 → s.xIn.toNat < 2 ^ z → s.yIn.toNat < 2 ^ z →
        u.xIn = s.xIn <<< (32 - z) → u.yIn = s.yIn <<< (32 - z) →
        exec (.pack z) s = .next t → exec .menc u = .next v →
        t.res = 1#64 <<< 62 ||| 1#64 <<< 59 ||| BitVec.ofNat 64 z <<< 52 ||| v.res >>> 12
          ||| 0x000FFFFFFFFFFFFF#64 >>> (2 * z)

/-- R174: MDEC completes for every IDX_IN and writes X_OUT and Y_OUT only; it inverts MENC and MENC
inverts it; and UNPACK is MDEC of the top-aligned payload, shifted right by 32 - z. -/
def Obligations.MdecLaw : Prop :=
  (∀ s : State, ∃ t, exec .mdec s = .next t
      ∧ t = { s with xOut := t.xOut, yOut := t.yOut, err := false, ecode := 0#4 }
      ∧ ∀ i, i < 32 → t.xOut.getLsbD i = s.idxIn.getLsbD (2 * i) ∧ t.yOut.getLsbD i = s.idxIn.getLsbD (2 * i + 1))
    ∧ (∀ s t u : State, exec .menc s = .next t → u.idxIn = t.res →
        ∃ w, exec .mdec u = .next w ∧ w.xOut = s.xIn ∧ w.yOut = s.yIn)
    ∧ (∀ s t u : State, exec .mdec s = .next t → u.xIn = t.xOut → u.yIn = t.yOut →
        ∃ w, exec .menc u = .next w ∧ w.res = s.idxIn)
    ∧ ∀ s t u v : State, exec .unpack s = .next t → u.idxIn = (s.idxIn &&& 0x000FFFFFFFFFFFFF#64) <<< 12 →
        exec .mdec u = .next v →
        t.xOut = v.xOut >>> (32 - resOf s.idxIn) ∧ t.yOut = v.yOut >>> (32 - resOf s.idxIn)

/-! ## Reset -/

/-- 70_reset_and_hazards.md R231: after reset every aligned offset of the window reads 0 but ID; every
register and flag is 0; and an idle block executes nothing, the 0 in CMD neither. -/
def Obligations.ResetValues : Prop :=
  (∀ a : Offset, a.toNat % 4 = 0 →
      readResponse a State.reset = { rdata := if a = 0x08#8 then 0x51420701#32 else 0#32, err := false })
    ∧ State.reset.idxIn = 0#64 ∧ State.reset.xIn = 0#32 ∧ State.reset.yIn = 0#32 ∧ State.reset.res = 0#64
    ∧ State.reset.xOut = 0#32 ∧ State.reset.yOut = 0#32 ∧ State.reset.fOut = 0#32 ∧ State.reset.cmd = 0#32
    ∧ State.reset.vi = false ∧ State.reset.vc = false ∧ State.reset.can = false ∧ State.reset.cha = false
    ∧ State.reset.err = false ∧ State.reset.errs = false ∧ State.reset.ecode = 0#4
    ∧ State.reset.chBase = 0#64 ∧ State.reset.chK = 0#64 ∧ State.reset.chN = 0#64
    ∧ ∀ p : Pins, p.rstN = true → p.reqValid = false →
        step { State.reset with hostIn := [p] } = .next State.reset

/-- R233: what the first command after reset does. -/
def Obligations.FirstCommandAfterReset : Prop :=
  (∃ t, exec .check State.reset = .next t ∧ t.vi = false ∧ t.vc = false ∧ t.can = false)
    ∧ (∃ t, exec .nextchild State.reset = .next t ∧ t.err = true ∧ t.ecode = 4#4)
    ∧ (∃ t, exec (.pack 0) State.reset = .next t ∧ t.err = false ∧ t.res = 0x480FFFFFFFFFFFFF#64)
    ∧ ∃ t, exec .unpack State.reset = .next t ∧ t.xOut = 0#32 ∧ t.yOut = 0#32 ∧ t.fOut = 0#32
end

