-- ==== Sys2Proof/Laws/Bits.lean ====
section
/-! SUPPORT. The bits of halves and fields (20_memory.md R65, 40_codec.md R100). -/

namespace Sys2Proof.Machine

@[simp] theorem loWord_getLsbD (v : Index) (i : Nat) :
    (loWord v).getLsbD i = (decide (i < 32) && v.getLsbD i) := by simp [loWord]

@[simp] theorem hiWord_getLsbD (v : Index) (i : Nat) :
    (hiWord v).getLsbD i = (decide (i < 32) && v.getLsbD (32 + i)) := by simp [hiWord]

@[simp] theorem joinWords_getLsbD (hi lo : Word) (i : Nat) :
    (joinWords hi lo).getLsbD i = if i < 32 then lo.getLsbD i else hi.getLsbD (i - 32) :=
  BitVec.getLsbD_append

@[simp] theorem loWord_joinWords (hi lo : Word) : loWord (joinWords hi lo) = lo := by
  apply BitVec.eq_of_getLsbD_eq; intro i h; simp only [loWord_getLsbD, joinWords_getLsbD, h, if_true, decide_true, Bool.true_and]

@[simp] theorem hiWord_joinWords (hi lo : Word) : hiWord (joinWords hi lo) = hi := by
  apply BitVec.eq_of_getLsbD_eq
  intro i h
  have h1 : ¬ 32 + i < 32 := by omega
  have h2 : 32 + i - 32 = i := by omega
  simp only [hiWord_getLsbD, joinWords_getLsbD, h, h1, h2, if_false, decide_true, Bool.true_and]

/-- A 64-bit register is its two words (R65). -/
@[simp] theorem joinWords_halves (v : Index) : joinWords (hiWord v) (loWord v) = v := by
  apply BitVec.eq_of_getLsbD_eq
  intro i h
  simp only [joinWords_getLsbD, loWord_getLsbD, hiWord_getLsbD]
  by_cases hi : i < 32
  · simp only [hi, if_true, decide_true, Bool.true_and]
  · have h1 : i - 32 < 32 := by omega
    have h2 : 32 + (i - 32) = i := by omega
    simp only [hi, h1, h2, if_false, decide_true, Bool.true_and]

theorem resOf_lt (v : Index) : resOf v < 32 := (resField v).isLt

/-- The resolution field in terms of the whole value. -/
theorem resOf_eq (v : Index) : resOf v = v.toNat / 2 ^ 52 % 2 ^ 5 := by
  simp [resOf, resField, BitVec.extractLsb'_toNat, Nat.shiftRight_eq_div_pow]

theorem footer_getLsbD (z i : Nat) : (footer z).getLsbD i = decide (i + 2 * z < 52) := by
  have h : footerOnes = BitVec.ofNat 64 (2 ^ 52 - 1) := by decide
  simp only [footer, h, BitVec.getLsbD_ushiftRight, BitVec.getLsbD_ofNat, Nat.testBit_two_pow_sub_one]
  by_cases hi : i + 2 * z < 52
  · have h1 : 2 * z + i < 52 := by omega
    have h2 : 2 * z + i < 64 := by omega
    simp [hi, h1, h2]
  · have h1 : ¬ 2 * z + i < 52 := by omega
    simp [hi, h1]

end Sys2Proof.Machine
end

