-- ==== Sys2Proof/Laws/State.lean ====
section
/-! SUPPORT. What each shared update of the state leaves in each field, so that no later proof unfolds a
record update. -/

namespace Sys2Proof.Machine

/-! `setErrorFields`. -/

@[simp] theorem setErrorFields_idxIn (err : Bool) (ecode : BitVec 4) (errs : Bool) (s : State) : (setErrorFields err ecode errs s).idxIn = s.idxIn := rfl
@[simp] theorem setErrorFields_xIn (err : Bool) (ecode : BitVec 4) (errs : Bool) (s : State) : (setErrorFields err ecode errs s).xIn = s.xIn := rfl
@[simp] theorem setErrorFields_yIn (err : Bool) (ecode : BitVec 4) (errs : Bool) (s : State) : (setErrorFields err ecode errs s).yIn = s.yIn := rfl
@[simp] theorem setErrorFields_res (err : Bool) (ecode : BitVec 4) (errs : Bool) (s : State) : (setErrorFields err ecode errs s).res = s.res := rfl
@[simp] theorem setErrorFields_xOut (err : Bool) (ecode : BitVec 4) (errs : Bool) (s : State) : (setErrorFields err ecode errs s).xOut = s.xOut := rfl
@[simp] theorem setErrorFields_yOut (err : Bool) (ecode : BitVec 4) (errs : Bool) (s : State) : (setErrorFields err ecode errs s).yOut = s.yOut := rfl
@[simp] theorem setErrorFields_fOut (err : Bool) (ecode : BitVec 4) (errs : Bool) (s : State) : (setErrorFields err ecode errs s).fOut = s.fOut := rfl
@[simp] theorem setErrorFields_cmd (err : Bool) (ecode : BitVec 4) (errs : Bool) (s : State) : (setErrorFields err ecode errs s).cmd = s.cmd := rfl
@[simp] theorem setErrorFields_vi (err : Bool) (ecode : BitVec 4) (errs : Bool) (s : State) : (setErrorFields err ecode errs s).vi = s.vi := rfl
@[simp] theorem setErrorFields_vc (err : Bool) (ecode : BitVec 4) (errs : Bool) (s : State) : (setErrorFields err ecode errs s).vc = s.vc := rfl
@[simp] theorem setErrorFields_can (err : Bool) (ecode : BitVec 4) (errs : Bool) (s : State) : (setErrorFields err ecode errs s).can = s.can := rfl
@[simp] theorem setErrorFields_cha (err : Bool) (ecode : BitVec 4) (errs : Bool) (s : State) : (setErrorFields err ecode errs s).cha = s.cha := rfl
@[simp] theorem setErrorFields_err (err : Bool) (ecode : BitVec 4) (errs : Bool) (s : State) : (setErrorFields err ecode errs s).err = err := rfl
@[simp] theorem setErrorFields_errs (err : Bool) (ecode : BitVec 4) (errs : Bool) (s : State) : (setErrorFields err ecode errs s).errs = errs := rfl
@[simp] theorem setErrorFields_ecode (err : Bool) (ecode : BitVec 4) (errs : Bool) (s : State) : (setErrorFields err ecode errs s).ecode = ecode := rfl
@[simp] theorem setErrorFields_chBase (err : Bool) (ecode : BitVec 4) (errs : Bool) (s : State) : (setErrorFields err ecode errs s).chBase = s.chBase := rfl
@[simp] theorem setErrorFields_chK (err : Bool) (ecode : BitVec 4) (errs : Bool) (s : State) : (setErrorFields err ecode errs s).chK = s.chK := rfl
@[simp] theorem setErrorFields_chN (err : Bool) (ecode : BitVec 4) (errs : Bool) (s : State) : (setErrorFields err ecode errs s).chN = s.chN := rfl
@[simp] theorem setErrorFields_inReset (err : Bool) (ecode : BitVec 4) (errs : Bool) (s : State) : (setErrorFields err ecode errs s).inReset = s.inReset := rfl
@[simp] theorem setErrorFields_busy (err : Bool) (ecode : BitVec 4) (errs : Bool) (s : State) : (setErrorFields err ecode errs s).busy = s.busy := rfl
@[simp] theorem setErrorFields_rsp (err : Bool) (ecode : BitVec 4) (errs : Bool) (s : State) : (setErrorFields err ecode errs s).rsp = s.rsp := rfl
@[simp] theorem setErrorFields_hostIn (err : Bool) (ecode : BitVec 4) (errs : Bool) (s : State) : (setErrorFields err ecode errs s).hostIn = s.hostIn := rfl

/-! `raise`. -/

@[simp] theorem raise_idxIn (e : CmdError) (s : State) : (raise e s).idxIn = s.idxIn := rfl
@[simp] theorem raise_xIn (e : CmdError) (s : State) : (raise e s).xIn = s.xIn := rfl
@[simp] theorem raise_yIn (e : CmdError) (s : State) : (raise e s).yIn = s.yIn := rfl
@[simp] theorem raise_res (e : CmdError) (s : State) : (raise e s).res = s.res := rfl
@[simp] theorem raise_xOut (e : CmdError) (s : State) : (raise e s).xOut = s.xOut := rfl
@[simp] theorem raise_yOut (e : CmdError) (s : State) : (raise e s).yOut = s.yOut := rfl
@[simp] theorem raise_fOut (e : CmdError) (s : State) : (raise e s).fOut = s.fOut := rfl
@[simp] theorem raise_cmd (e : CmdError) (s : State) : (raise e s).cmd = s.cmd := rfl
@[simp] theorem raise_vi (e : CmdError) (s : State) : (raise e s).vi = s.vi := rfl
@[simp] theorem raise_vc (e : CmdError) (s : State) : (raise e s).vc = s.vc := rfl
@[simp] theorem raise_can (e : CmdError) (s : State) : (raise e s).can = s.can := rfl
@[simp] theorem raise_cha (e : CmdError) (s : State) : (raise e s).cha = s.cha := rfl
@[simp] theorem raise_err (e : CmdError) (s : State) : (raise e s).err = true := rfl
@[simp] theorem raise_errs (e : CmdError) (s : State) : (raise e s).errs = true := rfl
@[simp] theorem raise_ecode (e : CmdError) (s : State) : (raise e s).ecode = errorCode e := rfl
@[simp] theorem raise_chBase (e : CmdError) (s : State) : (raise e s).chBase = s.chBase := rfl
@[simp] theorem raise_chK (e : CmdError) (s : State) : (raise e s).chK = s.chK := rfl
@[simp] theorem raise_chN (e : CmdError) (s : State) : (raise e s).chN = s.chN := rfl
@[simp] theorem raise_inReset (e : CmdError) (s : State) : (raise e s).inReset = s.inReset := rfl
@[simp] theorem raise_busy (e : CmdError) (s : State) : (raise e s).busy = s.busy := rfl
@[simp] theorem raise_rsp (e : CmdError) (s : State) : (raise e s).rsp = s.rsp := rfl
@[simp] theorem raise_hostIn (e : CmdError) (s : State) : (raise e s).hostIn = s.hostIn := rfl

/-! `complete`. -/

@[simp] theorem complete_idxIn (s : State) : (complete s).idxIn = s.idxIn := rfl
@[simp] theorem complete_xIn (s : State) : (complete s).xIn = s.xIn := rfl
@[simp] theorem complete_yIn (s : State) : (complete s).yIn = s.yIn := rfl
@[simp] theorem complete_res (s : State) : (complete s).res = s.res := rfl
@[simp] theorem complete_xOut (s : State) : (complete s).xOut = s.xOut := rfl
@[simp] theorem complete_yOut (s : State) : (complete s).yOut = s.yOut := rfl
@[simp] theorem complete_fOut (s : State) : (complete s).fOut = s.fOut := rfl
@[simp] theorem complete_cmd (s : State) : (complete s).cmd = s.cmd := rfl
@[simp] theorem complete_vi (s : State) : (complete s).vi = s.vi := rfl
@[simp] theorem complete_vc (s : State) : (complete s).vc = s.vc := rfl
@[simp] theorem complete_can (s : State) : (complete s).can = s.can := rfl
@[simp] theorem complete_cha (s : State) : (complete s).cha = s.cha := rfl
@[simp] theorem complete_err (s : State) : (complete s).err = false := rfl
@[simp] theorem complete_errs (s : State) : (complete s).errs = s.errs := rfl
@[simp] theorem complete_ecode (s : State) : (complete s).ecode = 0#4 := rfl
@[simp] theorem complete_chBase (s : State) : (complete s).chBase = s.chBase := rfl
@[simp] theorem complete_chK (s : State) : (complete s).chK = s.chK := rfl
@[simp] theorem complete_chN (s : State) : (complete s).chN = s.chN := rfl
@[simp] theorem complete_inReset (s : State) : (complete s).inReset = s.inReset := rfl
@[simp] theorem complete_busy (s : State) : (complete s).busy = s.busy := rfl
@[simp] theorem complete_rsp (s : State) : (complete s).rsp = s.rsp := rfl
@[simp] theorem complete_hostIn (s : State) : (complete s).hostIn = s.hostIn := rfl

/-! `setCheckFlags`. -/

@[simp] theorem setCheckFlags_idxIn (v : Index) (s : State) : (setCheckFlags v s).idxIn = s.idxIn := rfl
@[simp] theorem setCheckFlags_xIn (v : Index) (s : State) : (setCheckFlags v s).xIn = s.xIn := rfl
@[simp] theorem setCheckFlags_yIn (v : Index) (s : State) : (setCheckFlags v s).yIn = s.yIn := rfl
@[simp] theorem setCheckFlags_res (v : Index) (s : State) : (setCheckFlags v s).res = s.res := rfl
@[simp] theorem setCheckFlags_xOut (v : Index) (s : State) : (setCheckFlags v s).xOut = s.xOut := rfl
@[simp] theorem setCheckFlags_yOut (v : Index) (s : State) : (setCheckFlags v s).yOut = s.yOut := rfl
@[simp] theorem setCheckFlags_fOut (v : Index) (s : State) : (setCheckFlags v s).fOut = s.fOut := rfl
@[simp] theorem setCheckFlags_cmd (v : Index) (s : State) : (setCheckFlags v s).cmd = s.cmd := rfl
@[simp] theorem setCheckFlags_vi (v : Index) (s : State) : (setCheckFlags v s).vi = validIndex v := rfl
@[simp] theorem setCheckFlags_vc (v : Index) (s : State) : (setCheckFlags v s).vc = validCell v := rfl
@[simp] theorem setCheckFlags_can (v : Index) (s : State) : (setCheckFlags v s).can = canonicalCell v := rfl
@[simp] theorem setCheckFlags_cha (v : Index) (s : State) : (setCheckFlags v s).cha = s.cha := rfl
@[simp] theorem setCheckFlags_err (v : Index) (s : State) : (setCheckFlags v s).err = s.err := rfl
@[simp] theorem setCheckFlags_errs (v : Index) (s : State) : (setCheckFlags v s).errs = s.errs := rfl
@[simp] theorem setCheckFlags_ecode (v : Index) (s : State) : (setCheckFlags v s).ecode = s.ecode := rfl
@[simp] theorem setCheckFlags_chBase (v : Index) (s : State) : (setCheckFlags v s).chBase = s.chBase := rfl
@[simp] theorem setCheckFlags_chK (v : Index) (s : State) : (setCheckFlags v s).chK = s.chK := rfl
@[simp] theorem setCheckFlags_chN (v : Index) (s : State) : (setCheckFlags v s).chN = s.chN := rfl
@[simp] theorem setCheckFlags_inReset (v : Index) (s : State) : (setCheckFlags v s).inReset = s.inReset := rfl
@[simp] theorem setCheckFlags_busy (v : Index) (s : State) : (setCheckFlags v s).busy = s.busy := rfl
@[simp] theorem setCheckFlags_rsp (v : Index) (s : State) : (setCheckFlags v s).rsp = s.rsp := rfl
@[simp] theorem setCheckFlags_hostIn (v : Index) (s : State) : (setCheckFlags v s).hostIn = s.hostIn := rfl

/-! `setRes`. -/

@[simp] theorem setRes_idxIn (v : Index) (s : State) : (setRes v s).idxIn = s.idxIn := rfl
@[simp] theorem setRes_xIn (v : Index) (s : State) : (setRes v s).xIn = s.xIn := rfl
@[simp] theorem setRes_yIn (v : Index) (s : State) : (setRes v s).yIn = s.yIn := rfl
@[simp] theorem setRes_res (v : Index) (s : State) : (setRes v s).res = v := rfl
@[simp] theorem setRes_xOut (v : Index) (s : State) : (setRes v s).xOut = s.xOut := rfl
@[simp] theorem setRes_yOut (v : Index) (s : State) : (setRes v s).yOut = s.yOut := rfl
@[simp] theorem setRes_fOut (v : Index) (s : State) : (setRes v s).fOut = s.fOut := rfl
@[simp] theorem setRes_cmd (v : Index) (s : State) : (setRes v s).cmd = s.cmd := rfl
@[simp] theorem setRes_vi (v : Index) (s : State) : (setRes v s).vi = s.vi := rfl
@[simp] theorem setRes_vc (v : Index) (s : State) : (setRes v s).vc = s.vc := rfl
@[simp] theorem setRes_can (v : Index) (s : State) : (setRes v s).can = s.can := rfl
@[simp] theorem setRes_cha (v : Index) (s : State) : (setRes v s).cha = s.cha := rfl
@[simp] theorem setRes_err (v : Index) (s : State) : (setRes v s).err = s.err := rfl
@[simp] theorem setRes_errs (v : Index) (s : State) : (setRes v s).errs = s.errs := rfl
@[simp] theorem setRes_ecode (v : Index) (s : State) : (setRes v s).ecode = s.ecode := rfl
@[simp] theorem setRes_chBase (v : Index) (s : State) : (setRes v s).chBase = s.chBase := rfl
@[simp] theorem setRes_chK (v : Index) (s : State) : (setRes v s).chK = s.chK := rfl
@[simp] theorem setRes_chN (v : Index) (s : State) : (setRes v s).chN = s.chN := rfl
@[simp] theorem setRes_inReset (v : Index) (s : State) : (setRes v s).inReset = s.inReset := rfl
@[simp] theorem setRes_busy (v : Index) (s : State) : (setRes v s).busy = s.busy := rfl
@[simp] theorem setRes_rsp (v : Index) (s : State) : (setRes v s).rsp = s.rsp := rfl
@[simp] theorem setRes_hostIn (v : Index) (s : State) : (setRes v s).hostIn = s.hostIn := rfl

/-! `setTile`. -/

@[simp] theorem setTile_idxIn (x y : Word) (s : State) : (setTile x y s).idxIn = s.idxIn := rfl
@[simp] theorem setTile_xIn (x y : Word) (s : State) : (setTile x y s).xIn = s.xIn := rfl
@[simp] theorem setTile_yIn (x y : Word) (s : State) : (setTile x y s).yIn = s.yIn := rfl
@[simp] theorem setTile_res (x y : Word) (s : State) : (setTile x y s).res = s.res := rfl
@[simp] theorem setTile_xOut (x y : Word) (s : State) : (setTile x y s).xOut = x := rfl
@[simp] theorem setTile_yOut (x y : Word) (s : State) : (setTile x y s).yOut = y := rfl
@[simp] theorem setTile_fOut (x y : Word) (s : State) : (setTile x y s).fOut = s.fOut := rfl
@[simp] theorem setTile_cmd (x y : Word) (s : State) : (setTile x y s).cmd = s.cmd := rfl
@[simp] theorem setTile_vi (x y : Word) (s : State) : (setTile x y s).vi = s.vi := rfl
@[simp] theorem setTile_vc (x y : Word) (s : State) : (setTile x y s).vc = s.vc := rfl
@[simp] theorem setTile_can (x y : Word) (s : State) : (setTile x y s).can = s.can := rfl
@[simp] theorem setTile_cha (x y : Word) (s : State) : (setTile x y s).cha = s.cha := rfl
@[simp] theorem setTile_err (x y : Word) (s : State) : (setTile x y s).err = s.err := rfl
@[simp] theorem setTile_errs (x y : Word) (s : State) : (setTile x y s).errs = s.errs := rfl
@[simp] theorem setTile_ecode (x y : Word) (s : State) : (setTile x y s).ecode = s.ecode := rfl
@[simp] theorem setTile_chBase (x y : Word) (s : State) : (setTile x y s).chBase = s.chBase := rfl
@[simp] theorem setTile_chK (x y : Word) (s : State) : (setTile x y s).chK = s.chK := rfl
@[simp] theorem setTile_chN (x y : Word) (s : State) : (setTile x y s).chN = s.chN := rfl
@[simp] theorem setTile_inReset (x y : Word) (s : State) : (setTile x y s).inReset = s.inReset := rfl
@[simp] theorem setTile_busy (x y : Word) (s : State) : (setTile x y s).busy = s.busy := rfl
@[simp] theorem setTile_rsp (x y : Word) (s : State) : (setTile x y s).rsp = s.rsp := rfl
@[simp] theorem setTile_hostIn (x y : Word) (s : State) : (setTile x y s).hostIn = s.hostIn := rfl

/-! `setFields`. -/

@[simp] theorem setFields_idxIn (v : Index) (s : State) : (setFields v s).idxIn = s.idxIn := rfl
@[simp] theorem setFields_xIn (v : Index) (s : State) : (setFields v s).xIn = s.xIn := rfl
@[simp] theorem setFields_yIn (v : Index) (s : State) : (setFields v s).yIn = s.yIn := rfl
@[simp] theorem setFields_res (v : Index) (s : State) : (setFields v s).res = s.res := rfl
@[simp] theorem setFields_xOut (v : Index) (s : State) : (setFields v s).xOut = s.xOut := rfl
@[simp] theorem setFields_yOut (v : Index) (s : State) : (setFields v s).yOut = s.yOut := rfl
@[simp] theorem setFields_fOut (v : Index) (s : State) : (setFields v s).fOut = fieldsWord v := rfl
@[simp] theorem setFields_cmd (v : Index) (s : State) : (setFields v s).cmd = s.cmd := rfl
@[simp] theorem setFields_vi (v : Index) (s : State) : (setFields v s).vi = s.vi := rfl
@[simp] theorem setFields_vc (v : Index) (s : State) : (setFields v s).vc = s.vc := rfl
@[simp] theorem setFields_can (v : Index) (s : State) : (setFields v s).can = s.can := rfl
@[simp] theorem setFields_cha (v : Index) (s : State) : (setFields v s).cha = s.cha := rfl
@[simp] theorem setFields_err (v : Index) (s : State) : (setFields v s).err = s.err := rfl
@[simp] theorem setFields_errs (v : Index) (s : State) : (setFields v s).errs = s.errs := rfl
@[simp] theorem setFields_ecode (v : Index) (s : State) : (setFields v s).ecode = s.ecode := rfl
@[simp] theorem setFields_chBase (v : Index) (s : State) : (setFields v s).chBase = s.chBase := rfl
@[simp] theorem setFields_chK (v : Index) (s : State) : (setFields v s).chK = s.chK := rfl
@[simp] theorem setFields_chN (v : Index) (s : State) : (setFields v s).chN = s.chN := rfl
@[simp] theorem setFields_inReset (v : Index) (s : State) : (setFields v s).inReset = s.inReset := rfl
@[simp] theorem setFields_busy (v : Index) (s : State) : (setFields v s).busy = s.busy := rfl
@[simp] theorem setFields_rsp (v : Index) (s : State) : (setFields v s).rsp = s.rsp := rfl
@[simp] theorem setFields_hostIn (v : Index) (s : State) : (setFields v s).hostIn = s.hostIn := rfl

/-! `armIterator`. -/

@[simp] theorem armIterator_idxIn (b n : Index) (s : State) : (armIterator b n s).idxIn = s.idxIn := rfl
@[simp] theorem armIterator_xIn (b n : Index) (s : State) : (armIterator b n s).xIn = s.xIn := rfl
@[simp] theorem armIterator_yIn (b n : Index) (s : State) : (armIterator b n s).yIn = s.yIn := rfl
@[simp] theorem armIterator_res (b n : Index) (s : State) : (armIterator b n s).res = s.res := rfl
@[simp] theorem armIterator_xOut (b n : Index) (s : State) : (armIterator b n s).xOut = s.xOut := rfl
@[simp] theorem armIterator_yOut (b n : Index) (s : State) : (armIterator b n s).yOut = s.yOut := rfl
@[simp] theorem armIterator_fOut (b n : Index) (s : State) : (armIterator b n s).fOut = s.fOut := rfl
@[simp] theorem armIterator_cmd (b n : Index) (s : State) : (armIterator b n s).cmd = s.cmd := rfl
@[simp] theorem armIterator_vi (b n : Index) (s : State) : (armIterator b n s).vi = s.vi := rfl
@[simp] theorem armIterator_vc (b n : Index) (s : State) : (armIterator b n s).vc = s.vc := rfl
@[simp] theorem armIterator_can (b n : Index) (s : State) : (armIterator b n s).can = s.can := rfl
@[simp] theorem armIterator_cha (b n : Index) (s : State) : (armIterator b n s).cha = true := rfl
@[simp] theorem armIterator_err (b n : Index) (s : State) : (armIterator b n s).err = s.err := rfl
@[simp] theorem armIterator_errs (b n : Index) (s : State) : (armIterator b n s).errs = s.errs := rfl
@[simp] theorem armIterator_ecode (b n : Index) (s : State) : (armIterator b n s).ecode = s.ecode := rfl
@[simp] theorem armIterator_chBase (b n : Index) (s : State) : (armIterator b n s).chBase = b := rfl
@[simp] theorem armIterator_chK (b n : Index) (s : State) : (armIterator b n s).chK = 0#64 := rfl
@[simp] theorem armIterator_chN (b n : Index) (s : State) : (armIterator b n s).chN = n := rfl
@[simp] theorem armIterator_inReset (b n : Index) (s : State) : (armIterator b n s).inReset = s.inReset := rfl
@[simp] theorem armIterator_busy (b n : Index) (s : State) : (armIterator b n s).busy = s.busy := rfl
@[simp] theorem armIterator_rsp (b n : Index) (s : State) : (armIterator b n s).rsp = s.rsp := rfl
@[simp] theorem armIterator_hostIn (b n : Index) (s : State) : (armIterator b n s).hostIn = s.hostIn := rfl

/-! `advanceIterator`. -/

@[simp] theorem advanceIterator_idxIn (s : State) : (advanceIterator s).idxIn = s.idxIn := rfl
@[simp] theorem advanceIterator_xIn (s : State) : (advanceIterator s).xIn = s.xIn := rfl
@[simp] theorem advanceIterator_yIn (s : State) : (advanceIterator s).yIn = s.yIn := rfl
@[simp] theorem advanceIterator_res (s : State) : (advanceIterator s).res = s.res := rfl
@[simp] theorem advanceIterator_xOut (s : State) : (advanceIterator s).xOut = s.xOut := rfl
@[simp] theorem advanceIterator_yOut (s : State) : (advanceIterator s).yOut = s.yOut := rfl
@[simp] theorem advanceIterator_fOut (s : State) : (advanceIterator s).fOut = s.fOut := rfl
@[simp] theorem advanceIterator_cmd (s : State) : (advanceIterator s).cmd = s.cmd := rfl
@[simp] theorem advanceIterator_vi (s : State) : (advanceIterator s).vi = s.vi := rfl
@[simp] theorem advanceIterator_vc (s : State) : (advanceIterator s).vc = s.vc := rfl
@[simp] theorem advanceIterator_can (s : State) : (advanceIterator s).can = s.can := rfl
@[simp] theorem advanceIterator_cha (s : State) : (advanceIterator s).cha = if s.chK + 1#64 = s.chN then false else s.cha := rfl
@[simp] theorem advanceIterator_err (s : State) : (advanceIterator s).err = s.err := rfl
@[simp] theorem advanceIterator_errs (s : State) : (advanceIterator s).errs = s.errs := rfl
@[simp] theorem advanceIterator_ecode (s : State) : (advanceIterator s).ecode = s.ecode := rfl
@[simp] theorem advanceIterator_chBase (s : State) : (advanceIterator s).chBase = s.chBase := rfl
@[simp] theorem advanceIterator_chK (s : State) : (advanceIterator s).chK = s.chK + 1#64 := rfl
@[simp] theorem advanceIterator_chN (s : State) : (advanceIterator s).chN = s.chN := rfl
@[simp] theorem advanceIterator_inReset (s : State) : (advanceIterator s).inReset = s.inReset := rfl
@[simp] theorem advanceIterator_busy (s : State) : (advanceIterator s).busy = s.busy := rfl
@[simp] theorem advanceIterator_rsp (s : State) : (advanceIterator s).rsp = s.rsp := rfl
@[simp] theorem advanceIterator_hostIn (s : State) : (advanceIterator s).hostIn = s.hostIn := rfl

/-! `respond`. -/

@[simp] theorem respond_idxIn (r : Response) (s : State) : (respond r s).idxIn = s.idxIn := rfl
@[simp] theorem respond_xIn (r : Response) (s : State) : (respond r s).xIn = s.xIn := rfl
@[simp] theorem respond_yIn (r : Response) (s : State) : (respond r s).yIn = s.yIn := rfl
@[simp] theorem respond_res (r : Response) (s : State) : (respond r s).res = s.res := rfl
@[simp] theorem respond_xOut (r : Response) (s : State) : (respond r s).xOut = s.xOut := rfl
@[simp] theorem respond_yOut (r : Response) (s : State) : (respond r s).yOut = s.yOut := rfl
@[simp] theorem respond_fOut (r : Response) (s : State) : (respond r s).fOut = s.fOut := rfl
@[simp] theorem respond_cmd (r : Response) (s : State) : (respond r s).cmd = s.cmd := rfl
@[simp] theorem respond_vi (r : Response) (s : State) : (respond r s).vi = s.vi := rfl
@[simp] theorem respond_vc (r : Response) (s : State) : (respond r s).vc = s.vc := rfl
@[simp] theorem respond_can (r : Response) (s : State) : (respond r s).can = s.can := rfl
@[simp] theorem respond_cha (r : Response) (s : State) : (respond r s).cha = s.cha := rfl
@[simp] theorem respond_err (r : Response) (s : State) : (respond r s).err = s.err := rfl
@[simp] theorem respond_errs (r : Response) (s : State) : (respond r s).errs = s.errs := rfl
@[simp] theorem respond_ecode (r : Response) (s : State) : (respond r s).ecode = s.ecode := rfl
@[simp] theorem respond_chBase (r : Response) (s : State) : (respond r s).chBase = s.chBase := rfl
@[simp] theorem respond_chK (r : Response) (s : State) : (respond r s).chK = s.chK := rfl
@[simp] theorem respond_chN (r : Response) (s : State) : (respond r s).chN = s.chN := rfl
@[simp] theorem respond_inReset (r : Response) (s : State) : (respond r s).inReset = s.inReset := rfl
@[simp] theorem respond_busy (r : Response) (s : State) : (respond r s).busy = 0 := rfl
@[simp] theorem respond_rsp (r : Response) (s : State) : (respond r s).rsp = some r := rfl
@[simp] theorem respond_hostIn (r : Response) (s : State) : (respond r s).hostIn = s.hostIn := rfl

/-! `leaveReset`. -/

@[simp] theorem leaveReset_idxIn (s : State) : (leaveReset s).idxIn = s.idxIn := rfl
@[simp] theorem leaveReset_xIn (s : State) : (leaveReset s).xIn = s.xIn := rfl
@[simp] theorem leaveReset_yIn (s : State) : (leaveReset s).yIn = s.yIn := rfl
@[simp] theorem leaveReset_res (s : State) : (leaveReset s).res = s.res := rfl
@[simp] theorem leaveReset_xOut (s : State) : (leaveReset s).xOut = s.xOut := rfl
@[simp] theorem leaveReset_yOut (s : State) : (leaveReset s).yOut = s.yOut := rfl
@[simp] theorem leaveReset_fOut (s : State) : (leaveReset s).fOut = s.fOut := rfl
@[simp] theorem leaveReset_cmd (s : State) : (leaveReset s).cmd = s.cmd := rfl
@[simp] theorem leaveReset_vi (s : State) : (leaveReset s).vi = s.vi := rfl
@[simp] theorem leaveReset_vc (s : State) : (leaveReset s).vc = s.vc := rfl
@[simp] theorem leaveReset_can (s : State) : (leaveReset s).can = s.can := rfl
@[simp] theorem leaveReset_cha (s : State) : (leaveReset s).cha = s.cha := rfl
@[simp] theorem leaveReset_err (s : State) : (leaveReset s).err = s.err := rfl
@[simp] theorem leaveReset_errs (s : State) : (leaveReset s).errs = s.errs := rfl
@[simp] theorem leaveReset_ecode (s : State) : (leaveReset s).ecode = s.ecode := rfl
@[simp] theorem leaveReset_chBase (s : State) : (leaveReset s).chBase = s.chBase := rfl
@[simp] theorem leaveReset_chK (s : State) : (leaveReset s).chK = s.chK := rfl
@[simp] theorem leaveReset_chN (s : State) : (leaveReset s).chN = s.chN := rfl
@[simp] theorem leaveReset_inReset (s : State) : (leaveReset s).inReset = false := rfl
@[simp] theorem leaveReset_busy (s : State) : (leaveReset s).busy = s.busy := rfl
@[simp] theorem leaveReset_rsp (s : State) : (leaveReset s).rsp = none := rfl
@[simp] theorem leaveReset_hostIn (s : State) : (leaveReset s).hostIn = s.hostIn := rfl

/-! `waitCycles`. -/

@[simp] theorem waitCycles_idxIn (n : Nat) (s : State) : (waitCycles n s).idxIn = s.idxIn := rfl
@[simp] theorem waitCycles_xIn (n : Nat) (s : State) : (waitCycles n s).xIn = s.xIn := rfl
@[simp] theorem waitCycles_yIn (n : Nat) (s : State) : (waitCycles n s).yIn = s.yIn := rfl
@[simp] theorem waitCycles_res (n : Nat) (s : State) : (waitCycles n s).res = s.res := rfl
@[simp] theorem waitCycles_xOut (n : Nat) (s : State) : (waitCycles n s).xOut = s.xOut := rfl
@[simp] theorem waitCycles_yOut (n : Nat) (s : State) : (waitCycles n s).yOut = s.yOut := rfl
@[simp] theorem waitCycles_fOut (n : Nat) (s : State) : (waitCycles n s).fOut = s.fOut := rfl
@[simp] theorem waitCycles_cmd (n : Nat) (s : State) : (waitCycles n s).cmd = s.cmd := rfl
@[simp] theorem waitCycles_vi (n : Nat) (s : State) : (waitCycles n s).vi = s.vi := rfl
@[simp] theorem waitCycles_vc (n : Nat) (s : State) : (waitCycles n s).vc = s.vc := rfl
@[simp] theorem waitCycles_can (n : Nat) (s : State) : (waitCycles n s).can = s.can := rfl
@[simp] theorem waitCycles_cha (n : Nat) (s : State) : (waitCycles n s).cha = s.cha := rfl
@[simp] theorem waitCycles_err (n : Nat) (s : State) : (waitCycles n s).err = s.err := rfl
@[simp] theorem waitCycles_errs (n : Nat) (s : State) : (waitCycles n s).errs = s.errs := rfl
@[simp] theorem waitCycles_ecode (n : Nat) (s : State) : (waitCycles n s).ecode = s.ecode := rfl
@[simp] theorem waitCycles_chBase (n : Nat) (s : State) : (waitCycles n s).chBase = s.chBase := rfl
@[simp] theorem waitCycles_chK (n : Nat) (s : State) : (waitCycles n s).chK = s.chK := rfl
@[simp] theorem waitCycles_chN (n : Nat) (s : State) : (waitCycles n s).chN = s.chN := rfl
@[simp] theorem waitCycles_inReset (n : Nat) (s : State) : (waitCycles n s).inReset = s.inReset := rfl
@[simp] theorem waitCycles_busy (n : Nat) (s : State) : (waitCycles n s).busy = n := rfl
@[simp] theorem waitCycles_rsp (n : Nat) (s : State) : (waitCycles n s).rsp = none := rfl
@[simp] theorem waitCycles_hostIn (n : Nat) (s : State) : (waitCycles n s).hostIn = s.hostIn := rfl

/-! `endResponse`. -/

@[simp] theorem endResponse_idxIn (s : State) : (endResponse s).idxIn = s.idxIn := rfl
@[simp] theorem endResponse_xIn (s : State) : (endResponse s).xIn = s.xIn := rfl
@[simp] theorem endResponse_yIn (s : State) : (endResponse s).yIn = s.yIn := rfl
@[simp] theorem endResponse_res (s : State) : (endResponse s).res = s.res := rfl
@[simp] theorem endResponse_xOut (s : State) : (endResponse s).xOut = s.xOut := rfl
@[simp] theorem endResponse_yOut (s : State) : (endResponse s).yOut = s.yOut := rfl
@[simp] theorem endResponse_fOut (s : State) : (endResponse s).fOut = s.fOut := rfl
@[simp] theorem endResponse_cmd (s : State) : (endResponse s).cmd = s.cmd := rfl
@[simp] theorem endResponse_vi (s : State) : (endResponse s).vi = s.vi := rfl
@[simp] theorem endResponse_vc (s : State) : (endResponse s).vc = s.vc := rfl
@[simp] theorem endResponse_can (s : State) : (endResponse s).can = s.can := rfl
@[simp] theorem endResponse_cha (s : State) : (endResponse s).cha = s.cha := rfl
@[simp] theorem endResponse_err (s : State) : (endResponse s).err = s.err := rfl
@[simp] theorem endResponse_errs (s : State) : (endResponse s).errs = s.errs := rfl
@[simp] theorem endResponse_ecode (s : State) : (endResponse s).ecode = s.ecode := rfl
@[simp] theorem endResponse_chBase (s : State) : (endResponse s).chBase = s.chBase := rfl
@[simp] theorem endResponse_chK (s : State) : (endResponse s).chK = s.chK := rfl
@[simp] theorem endResponse_chN (s : State) : (endResponse s).chN = s.chN := rfl
@[simp] theorem endResponse_inReset (s : State) : (endResponse s).inReset = s.inReset := rfl
@[simp] theorem endResponse_busy (s : State) : (endResponse s).busy = s.busy := rfl
@[simp] theorem endResponse_rsp (s : State) : (endResponse s).rsp = none := rfl
@[simp] theorem endResponse_hostIn (s : State) : (endResponse s).hostIn = s.hostIn := rfl

/-! `nextCycle`. -/

@[simp] theorem nextCycle_idxIn (s : State) : (nextCycle s).idxIn = s.idxIn := rfl
@[simp] theorem nextCycle_xIn (s : State) : (nextCycle s).xIn = s.xIn := rfl
@[simp] theorem nextCycle_yIn (s : State) : (nextCycle s).yIn = s.yIn := rfl
@[simp] theorem nextCycle_res (s : State) : (nextCycle s).res = s.res := rfl
@[simp] theorem nextCycle_xOut (s : State) : (nextCycle s).xOut = s.xOut := rfl
@[simp] theorem nextCycle_yOut (s : State) : (nextCycle s).yOut = s.yOut := rfl
@[simp] theorem nextCycle_fOut (s : State) : (nextCycle s).fOut = s.fOut := rfl
@[simp] theorem nextCycle_cmd (s : State) : (nextCycle s).cmd = s.cmd := rfl
@[simp] theorem nextCycle_vi (s : State) : (nextCycle s).vi = s.vi := rfl
@[simp] theorem nextCycle_vc (s : State) : (nextCycle s).vc = s.vc := rfl
@[simp] theorem nextCycle_can (s : State) : (nextCycle s).can = s.can := rfl
@[simp] theorem nextCycle_cha (s : State) : (nextCycle s).cha = s.cha := rfl
@[simp] theorem nextCycle_err (s : State) : (nextCycle s).err = s.err := rfl
@[simp] theorem nextCycle_errs (s : State) : (nextCycle s).errs = s.errs := rfl
@[simp] theorem nextCycle_ecode (s : State) : (nextCycle s).ecode = s.ecode := rfl
@[simp] theorem nextCycle_chBase (s : State) : (nextCycle s).chBase = s.chBase := rfl
@[simp] theorem nextCycle_chK (s : State) : (nextCycle s).chK = s.chK := rfl
@[simp] theorem nextCycle_chN (s : State) : (nextCycle s).chN = s.chN := rfl
@[simp] theorem nextCycle_inReset (s : State) : (nextCycle s).inReset = s.inReset := rfl
@[simp] theorem nextCycle_busy (s : State) : (nextCycle s).busy = s.busy := rfl
@[simp] theorem nextCycle_rsp (s : State) : (nextCycle s).rsp = s.rsp := rfl
@[simp] theorem nextCycle_hostIn (s : State) : (nextCycle s).hostIn = s.hostIn.tail := rfl

/-! `placeCommand`. -/

@[simp] theorem placeCommand_idxIn (w : Word) (s : State) : (placeCommand w s).idxIn = s.idxIn := rfl
@[simp] theorem placeCommand_xIn (w : Word) (s : State) : (placeCommand w s).xIn = s.xIn := rfl
@[simp] theorem placeCommand_yIn (w : Word) (s : State) : (placeCommand w s).yIn = s.yIn := rfl
@[simp] theorem placeCommand_res (w : Word) (s : State) : (placeCommand w s).res = s.res := rfl
@[simp] theorem placeCommand_xOut (w : Word) (s : State) : (placeCommand w s).xOut = s.xOut := rfl
@[simp] theorem placeCommand_yOut (w : Word) (s : State) : (placeCommand w s).yOut = s.yOut := rfl
@[simp] theorem placeCommand_fOut (w : Word) (s : State) : (placeCommand w s).fOut = s.fOut := rfl
@[simp] theorem placeCommand_cmd (w : Word) (s : State) : (placeCommand w s).cmd = w := rfl
@[simp] theorem placeCommand_vi (w : Word) (s : State) : (placeCommand w s).vi = s.vi := rfl
@[simp] theorem placeCommand_vc (w : Word) (s : State) : (placeCommand w s).vc = s.vc := rfl
@[simp] theorem placeCommand_can (w : Word) (s : State) : (placeCommand w s).can = s.can := rfl
@[simp] theorem placeCommand_cha (w : Word) (s : State) : (placeCommand w s).cha = s.cha := rfl
@[simp] theorem placeCommand_err (w : Word) (s : State) : (placeCommand w s).err = s.err := rfl
@[simp] theorem placeCommand_errs (w : Word) (s : State) : (placeCommand w s).errs = s.errs := rfl
@[simp] theorem placeCommand_ecode (w : Word) (s : State) : (placeCommand w s).ecode = s.ecode := rfl
@[simp] theorem placeCommand_chBase (w : Word) (s : State) : (placeCommand w s).chBase = s.chBase := rfl
@[simp] theorem placeCommand_chK (w : Word) (s : State) : (placeCommand w s).chK = s.chK := rfl
@[simp] theorem placeCommand_chN (w : Word) (s : State) : (placeCommand w s).chN = s.chN := rfl
@[simp] theorem placeCommand_inReset (w : Word) (s : State) : (placeCommand w s).inReset = false := rfl
@[simp] theorem placeCommand_busy (w : Word) (s : State) : (placeCommand w s).busy = 1 := rfl
@[simp] theorem placeCommand_rsp (w : Word) (s : State) : (placeCommand w s).rsp = s.rsp := rfl
@[simp] theorem placeCommand_hostIn (w : Word) (s : State) : (placeCommand w s).hostIn = idlePins :: s.hostIn := rfl

/-! `holdInReset`. -/

@[simp] theorem holdInReset_idxIn (s : State) : (holdInReset s).idxIn = 0#64 := rfl
@[simp] theorem holdInReset_xIn (s : State) : (holdInReset s).xIn = 0#32 := rfl
@[simp] theorem holdInReset_yIn (s : State) : (holdInReset s).yIn = 0#32 := rfl
@[simp] theorem holdInReset_res (s : State) : (holdInReset s).res = 0#64 := rfl
@[simp] theorem holdInReset_xOut (s : State) : (holdInReset s).xOut = 0#32 := rfl
@[simp] theorem holdInReset_yOut (s : State) : (holdInReset s).yOut = 0#32 := rfl
@[simp] theorem holdInReset_fOut (s : State) : (holdInReset s).fOut = 0#32 := rfl
@[simp] theorem holdInReset_cmd (s : State) : (holdInReset s).cmd = 0#32 := rfl
@[simp] theorem holdInReset_vi (s : State) : (holdInReset s).vi = false := rfl
@[simp] theorem holdInReset_vc (s : State) : (holdInReset s).vc = false := rfl
@[simp] theorem holdInReset_can (s : State) : (holdInReset s).can = false := rfl
@[simp] theorem holdInReset_cha (s : State) : (holdInReset s).cha = false := rfl
@[simp] theorem holdInReset_err (s : State) : (holdInReset s).err = false := rfl
@[simp] theorem holdInReset_errs (s : State) : (holdInReset s).errs = false := rfl
@[simp] theorem holdInReset_ecode (s : State) : (holdInReset s).ecode = 0#4 := rfl
@[simp] theorem holdInReset_chBase (s : State) : (holdInReset s).chBase = 0#64 := rfl
@[simp] theorem holdInReset_chK (s : State) : (holdInReset s).chK = 0#64 := rfl
@[simp] theorem holdInReset_chN (s : State) : (holdInReset s).chN = 0#64 := rfl
@[simp] theorem holdInReset_inReset (s : State) : (holdInReset s).inReset = true := rfl
@[simp] theorem holdInReset_busy (s : State) : (holdInReset s).busy = 0 := rfl
@[simp] theorem holdInReset_rsp (s : State) : (holdInReset s).rsp = none := rfl
@[simp] theorem holdInReset_hostIn (s : State) : (holdInReset s).hostIn = s.hostIn := rfl

/-! `writeStatus` (10_state.md R32). -/

@[simp] theorem writeStatus_idxIn (v : Word) (s : State) : (writeStatus v s).idxIn = s.idxIn := by
  unfold writeStatus; split <;> rfl
@[simp] theorem writeStatus_xIn (v : Word) (s : State) : (writeStatus v s).xIn = s.xIn := by
  unfold writeStatus; split <;> rfl
@[simp] theorem writeStatus_yIn (v : Word) (s : State) : (writeStatus v s).yIn = s.yIn := by
  unfold writeStatus; split <;> rfl
@[simp] theorem writeStatus_res (v : Word) (s : State) : (writeStatus v s).res = s.res := by
  unfold writeStatus; split <;> rfl
@[simp] theorem writeStatus_xOut (v : Word) (s : State) : (writeStatus v s).xOut = s.xOut := by
  unfold writeStatus; split <;> rfl
@[simp] theorem writeStatus_yOut (v : Word) (s : State) : (writeStatus v s).yOut = s.yOut := by
  unfold writeStatus; split <;> rfl
@[simp] theorem writeStatus_fOut (v : Word) (s : State) : (writeStatus v s).fOut = s.fOut := by
  unfold writeStatus; split <;> rfl
@[simp] theorem writeStatus_cmd (v : Word) (s : State) : (writeStatus v s).cmd = s.cmd := by
  unfold writeStatus; split <;> rfl
@[simp] theorem writeStatus_vi (v : Word) (s : State) : (writeStatus v s).vi = s.vi := by
  unfold writeStatus; split <;> rfl
@[simp] theorem writeStatus_vc (v : Word) (s : State) : (writeStatus v s).vc = s.vc := by
  unfold writeStatus; split <;> rfl
@[simp] theorem writeStatus_can (v : Word) (s : State) : (writeStatus v s).can = s.can := by
  unfold writeStatus; split <;> rfl
@[simp] theorem writeStatus_cha (v : Word) (s : State) : (writeStatus v s).cha = s.cha := by
  unfold writeStatus; split <;> rfl
@[simp] theorem writeStatus_err (v : Word) (s : State) : (writeStatus v s).err = s.err := by
  unfold writeStatus; split <;> rfl
@[simp] theorem writeStatus_errs (v : Word) (s : State) :
    (writeStatus v s).errs = if v.getLsbD 5 then false else s.errs := by
  unfold writeStatus; split <;> rfl
@[simp] theorem writeStatus_ecode (v : Word) (s : State) : (writeStatus v s).ecode = s.ecode := by
  unfold writeStatus; split <;> rfl
@[simp] theorem writeStatus_chBase (v : Word) (s : State) : (writeStatus v s).chBase = s.chBase := by
  unfold writeStatus; split <;> rfl
@[simp] theorem writeStatus_chK (v : Word) (s : State) : (writeStatus v s).chK = s.chK := by
  unfold writeStatus; split <;> rfl
@[simp] theorem writeStatus_chN (v : Word) (s : State) : (writeStatus v s).chN = s.chN := by
  unfold writeStatus; split <;> rfl
@[simp] theorem writeStatus_inReset (v : Word) (s : State) : (writeStatus v s).inReset = s.inReset := by
  unfold writeStatus; split <;> rfl
@[simp] theorem writeStatus_busy (v : Word) (s : State) : (writeStatus v s).busy = s.busy := by
  unfold writeStatus; split <;> rfl
@[simp] theorem writeStatus_rsp (v : Word) (s : State) : (writeStatus v s).rsp = s.rsp := by
  unfold writeStatus; split <;> rfl
@[simp] theorem writeStatus_hostIn (v : Word) (s : State) : (writeStatus v s).hostIn = s.hostIn := by
  unfold writeStatus; split <;> rfl

end Sys2Proof.Machine
end

