-- ==== Sys2Proof/Laws/Ops.lean ====
section
/-! SUPPORT. What each shared operation can do, said once: error reports, the register window, one
access. -/

namespace Sys2Proof.Machine

/-- R203 as a record. -/
theorem raise_eq (e : CmdError) (s : State) :
    raise e s = { s with err := true, ecode := errorCode e, errs := true } := rfl

/-- R204 as a record. -/
theorem complete_eq (s : State) : complete s = { s with err := false, ecode := 0#4 } := rfl

@[simp] theorem errorCode_ne_zero (e : CmdError) : errorCode e ≠ 0#4 := by cases e <;> decide

theorem errorCode_le_four (e : CmdError) : (errorCode e).toNat ≤ 4 := by cases e <;> decide

/-- Each register of the window is found at its offset (20_memory.md R64). -/
@[simp] theorem regAt_offsetOf (r : WinReg) : regAt (offsetOf r) = some r := by cases r <;> decide

/-- A register is found at its own offset only. -/
theorem offsetOf_of_regAt {a : Offset} {r : WinReg} (h : regAt a = some r) : a = offsetOf r := by
  have := List.find?_some h
  exact (eq_of_beq this).symm

theorem offsetOf_aligned (r : WinReg) : misaligned (offsetOf r) = false := by cases r <;> decide

theorem regAt_of_misaligned {a : Offset} (h : misaligned a = true) : regAt a = none := by
  cases hr : regAt a with
  | none => rfl
  | some r =>
    have := offsetOf_aligned r
    rw [← offsetOf_of_regAt hr, h] at this
    cases this

theorem misaligned_iff (a : Offset) :
    misaligned a = true ↔ a.getLsbD 0 = true ∨ a.getLsbD 1 = true := by
  revert a; decide

/-- Storing to the window at a register's offset writes that register (20_memory.md R67). -/
@[simp] theorem windowStore_offsetOf (r : WinReg) (v : Word) (s : State) :
    windowStore (offsetOf r) v s = writeReg r v s := by
  simp [windowStore, offsetOf_aligned]

/-- All a store to the window can change (R67, R69). -/
theorem windowStore_cases (a : Offset) (v : Word) (s : State) :
    windowStore a v s = s
      ∨ (a = offsetOf .cmd ∧ windowStore a v s = { s with cmd := v })
      ∨ (a = offsetOf .status ∧ windowStore a v s = writeStatus v s)
      ∨ (a = offsetOf .idxInLo ∧ windowStore a v s = { s with idxIn := setLoWord s.idxIn v })
      ∨ (a = offsetOf .idxInHi ∧ windowStore a v s = { s with idxIn := setHiWord s.idxIn v })
      ∨ (a = offsetOf .xIn ∧ windowStore a v s = { s with xIn := v })
      ∨ (a = offsetOf .yIn ∧ windowStore a v s = { s with yIn := v }) := by
  by_cases hm : misaligned a = true
  · exact .inl (by simp [windowStore, hm])
  · cases hr : regAt a with
    | none => exact .inl (by simp [windowStore, hr])
    | some r =>
      obtain rfl := offsetOf_of_regAt hr
      rw [windowStore_offsetOf]
      cases r <;> simp [writeReg]

/-- A store to the window touches no result register, no iterator register, no flag but ERRS and
nothing of the port. -/
theorem windowStore_frame (a : Offset) (v : Word) (s : State) :
    windowStore a v s =
      { s with
        idxIn := (windowStore a v s).idxIn, xIn := (windowStore a v s).xIn, yIn := (windowStore a v s).yIn,
        cmd := (windowStore a v s).cmd, errs := (windowStore a v s).errs } := by
  rcases windowStore_cases a v s with h | ⟨-, h⟩ | ⟨-, h⟩ | ⟨-, h⟩ | ⟨-, h⟩ | ⟨-, h⟩ | ⟨-, h⟩ <;> rw [h]
  unfold writeStatus; split <;> rfl

/-- An access that starts no command stores and is answered (20_memory.md R66, R67). -/
theorem access_of_not_startsCommand {a : Access} (s : State) (h : startsCommand a = false) :
    access a s =
      match a with
      | .read o => .next (respond (readResponse o s) s)
      | .write o v => .next (respond (writeResponse o) (windowStore o v s)) := by
  cases a with
  | read o => rfl
  | write o v => simp [access, h]

end Sys2Proof.Machine
end

