-- ==== Sys2Proof/Laws/Exec.lean ====
section
/-! SUPPORT. What each command can do, said once: it reports one of its errors, or completes with the
writes of its rule. -/

namespace Sys2Proof.Machine

theorem execNop_eq (s : State) : execNop s = .next (complete s) := rfl

theorem execPack_cases (z : Nat) (s : State) :
    (Config.maxRes < z ∧ execPack z s = .next (raise .invalidResolution s))
      ∨ (z ≤ Config.maxRes ∧ tileInRange z s.xIn s.yIn = false ∧ execPack z s = .next (raise .tileRange s))
      ∨ (z ≤ Config.maxRes ∧ tileInRange z s.xIn s.yIn = true
          ∧ execPack z s = .next (complete (setRes (packIndex z s.xIn s.yIn) s))) := by
  unfold execPack
  split
  · exact .inl ⟨‹_›, rfl⟩
  · split
    · exact .inr (.inl ⟨by omega, ‹_›, rfl⟩)
    · exact .inr (.inr ⟨by omega, by simpa using ‹¬ _ = false›, rfl⟩)

theorem execUnpack_eq (s : State) :
    execUnpack s =
      .next (complete (setFields s.idxIn (setTile (unpackX s.idxIn) (unpackY s.idxIn) s))) := rfl

theorem execCheck_eq (s : State) :
    execCheck s = .next (complete (setFields s.idxIn (setCheckFlags s.idxIn s))) := rfl

theorem execGetres_eq (s : State) : execGetres s = .next (complete (setFields s.idxIn s)) := rfl

theorem execParent_cases (p : Nat) (s : State) :
    ((Config.maxRes < p ∨ resOf s.idxIn < p) ∧ execParent p s = .next (raise .invalidResolution s))
      ∨ (p ≤ Config.maxRes ∧ p ≤ resOf s.idxIn
          ∧ execParent p s = .next (complete (setRes (parentIndex s.idxIn p) s))) := by
  unfold execParent
  split
  · exact .inl ⟨‹_›, rfl⟩
  · exact .inr ⟨by omega, by omega, rfl⟩

theorem execChildren_cases (c : Nat) (s : State) :
    ((Config.maxRes < c ∨ c ≤ resOf s.idxIn) ∧ execChildren c s = .next (raise .invalidResolution s))
      ∨ (c ≤ Config.maxRes ∧ resOf s.idxIn < c
          ∧ execChildren c s =
            .next (complete (armIterator (childBase s.idxIn c) (childCount (c - resOf s.idxIn)) s))) := by
  unfold execChildren
  split
  · exact .inl ⟨‹_›, rfl⟩
  · exact .inr ⟨by omega, by omega, rfl⟩

theorem execNextchild_cases (s : State) :
    (s.cha = false ∧ execNextchild s = .next (raise .noIteration s))
      ∨ (s.cha = true
          ∧ execNextchild s = .next (complete (advanceIterator (setRes (childAt s.chBase s.chK) s)))) := by
  unfold execNextchild
  split
  · exact .inl ⟨‹_›, rfl⟩
  · exact .inr ⟨by simpa using ‹¬ _ = false›, rfl⟩

theorem execMenc_eq (s : State) :
    execMenc s = .next (complete (setRes (interleave (s.xIn.setWidth 64) (s.yIn.setWidth 64)) s)) := rfl

theorem execMdec_eq (s : State) :
    execMdec s =
      .next (complete (setTile ((evenBits s.idxIn).setWidth 32) ((oddBits s.idxIn).setWidth 32) s)) := rfl

/-- A command that gives a next state reported an error and changed nothing else, or completed. -/
theorem exec_raises_or_completes {i : Instr} {s t : State} (h : exec i s = .next t) :
    (∃ e, t = raise e s) ∨ (∃ u, t = complete u ∧ u.errs = s.errs) := by
  cases i with
  | nop => cases h; exact .inr ⟨_, rfl, rfl⟩
  | pack z =>
    rcases execPack_cases z s with ⟨-, e⟩ | ⟨-, -, e⟩ | ⟨-, -, e⟩ <;> cases e.symm.trans h
    · exact .inl ⟨_, rfl⟩
    · exact .inl ⟨_, rfl⟩
    · exact .inr ⟨_, rfl, rfl⟩
  | unpack => cases h; exact .inr ⟨_, rfl, rfl⟩
  | check => cases h; exact .inr ⟨_, rfl, rfl⟩
  | getres => cases h; exact .inr ⟨_, rfl, rfl⟩
  | parent p =>
    rcases execParent_cases p s with ⟨-, e⟩ | ⟨-, -, e⟩ <;> cases e.symm.trans h
    · exact .inl ⟨_, rfl⟩
    · exact .inr ⟨_, rfl, rfl⟩
  | children c =>
    rcases execChildren_cases c s with ⟨-, e⟩ | ⟨-, -, e⟩ <;> cases e.symm.trans h
    · exact .inl ⟨_, rfl⟩
    · exact .inr ⟨_, rfl, rfl⟩
  | nextchild =>
    rcases execNextchild_cases s with ⟨-, e⟩ | ⟨-, e⟩ <;> cases e.symm.trans h
    · exact .inl ⟨_, rfl⟩
    · exact .inr ⟨_, rfl, rfl⟩
  | menc => cases h; exact .inr ⟨_, rfl, rfl⟩
  | mdec => cases h; exact .inr ⟨_, rfl, rfl⟩

/-- No command touches the port or the host's pins. -/
theorem exec_port_frame {i : Instr} {s t : State} (h : exec i s = .next t) :
    t.inReset = s.inReset ∧ t.busy = s.busy ∧ t.rsp = s.rsp ∧ t.hostIn = s.hostIn := by
  cases i with
  | nop => cases h; simp
  | pack z =>
    rcases execPack_cases z s with ⟨-, e⟩ | ⟨-, -, e⟩ | ⟨-, -, e⟩ <;> cases e.symm.trans h <;> simp
  | unpack => cases h; simp
  | check => cases h; simp
  | getres => cases h; simp
  | parent p => rcases execParent_cases p s with ⟨-, e⟩ | ⟨-, -, e⟩ <;> cases e.symm.trans h <;> simp
  | children c => rcases execChildren_cases c s with ⟨-, e⟩ | ⟨-, -, e⟩ <;> cases e.symm.trans h <;> simp
  | nextchild => rcases execNextchild_cases s with ⟨-, e⟩ | ⟨-, e⟩ <;> cases e.symm.trans h <;> simp
  | menc => cases h; simp
  | mdec => cases h; simp

/-- What a command does to the registers does not depend on the port. -/
theorem exec_port_irrelevant (i : Instr) (s : State) (b : Nat) (r : Option Response) (h : List Pins) :
    exec i { s with busy := b, rsp := r, hostIn := h } =
      match exec i s with
      | .next t => .next { t with busy := b, rsp := r, hostIn := h }
      | .fault f => .fault f
      | .refused q => .refused q := by
  cases i with
  | nop => rfl
  | pack z =>
    by_cases h1 : Config.maxRes < z
    · simp only [exec, execPack, h1, if_true]; rfl
    · by_cases h2 : tileInRange z s.xIn s.yIn = false
      · simp only [exec, execPack, h1, h2, if_true, if_false]; rfl
      · simp only [exec, execPack, h1, h2, if_false]; rfl
  | unpack => rfl
  | check => rfl
  | getres => rfl
  | parent p =>
    by_cases h1 : Config.maxRes < p ∨ resOf s.idxIn < p
    · simp only [exec, execParent, h1, if_true]; rfl
    · simp only [exec, execParent, h1, if_false]; rfl
  | children c =>
    by_cases h1 : Config.maxRes < c ∨ c ≤ resOf s.idxIn
    · simp only [exec, execChildren, h1, if_true]; rfl
    · simp only [exec, execChildren, h1, if_false]; rfl
  | nextchild =>
    cases hc : s.cha <;> cases s <;> cases hc <;> rfl
  | menc => rfl
  | mdec => rfl

end Sys2Proof.Machine
end

