-- ==== Sys2Proof/Laws/PerInstr.lean ====
section
/-! SUPPORT. Facts about the encoding of each command, one lemma per constructor. -/

namespace Sys2Proof.Laws.ReservedFieldsClear

/-- An encoded command has its reserved fields 0 (30_encoding.md R83), and R 0 where it takes none
(R87). -/
def Statement (i : Instr) : Prop :=
  i.WellFormed → z0Field (encode i) = 0#4 ∧ z1Field (encode i) = 0#19
    ∧ (opUsesR (opField (encode i)) = false → rField (encode i) = 0)

/-- The three commands that take R, for every value of R. -/
theorem of_operand (op r : Nat) (hop : op = 0x1 ∨ op = 0x5 ∨ op = 0x6) (h : r ≤ 31) :
    z0Field (enc op r) = 0#4 ∧ z1Field (enc op r) = 0#19
      ∧ (opUsesR (opField (enc op r)) = false → rField (enc op r) = 0) := by
  rcases hop with rfl | rfl | rfl <;> interval_cases r <;> decide

theorem nop : Statement .nop := fun _ => by decide
theorem pack (z : Nat) : Statement (.pack z) := fun h => of_operand 0x1 z (by simp) (of_decide_eq_true h)
theorem unpack : Statement .unpack := fun _ => by decide
theorem check : Statement .check := fun _ => by decide
theorem getres : Statement .getres := fun _ => by decide
theorem parent (p : Nat) : Statement (.parent p) := fun h => of_operand 0x5 p (by simp) (of_decide_eq_true h)
theorem children (c : Nat) : Statement (.children c) := fun h => of_operand 0x6 c (by simp) (of_decide_eq_true h)
theorem nextchild : Statement .nextchild := fun _ => by decide
theorem menc : Statement .menc := fun _ => by decide
theorem mdec : Statement .mdec := fun _ => by decide

end Sys2Proof.Laws.ReservedFieldsClear
end

