-- ==== Sys2Proof/Laws/Port.lean ====
section
/-! SUPPORT. What one clock cycle can do, said once (20_memory.md R61, R62, 70_reset_and_hazards.md
R230). -/

namespace Sys2Proof.Machine

/-- Executing the word in CMD is executing the command it selects (30_encoding.md R85). -/
theorem runCommand_of_decode {s : State} {i : Instr} (h : decode s.cmd = .ok i) :
    runCommand s = exec i s := by simp [runCommand, h]

/-- A word that selects no command raises IllegalCommand (R86). -/
theorem runCommand_of_illegal {s : State} {e : DecodeError} (h : decode s.cmd = .error e) :
    runCommand s = .next (raise .illegalCommand s) := by simp [runCommand, h]

/-- The command of CMD completes in a state of `runCommand`, answered. -/
theorem finishCommand_next {s t : State} (h : finishCommand s = .next t) :
    ∃ u, runCommand s = .next u ∧ t = respond writeDone u := by
  unfold finishCommand at h
  split at h
  · exact ⟨_, ‹_›, by cases h; rfl⟩
  · cases h
  · cases h

/-- The completion of a command does not depend on what the port held; its pins stay. -/
theorem finishCommand_port_irrelevant (s : State) (b : Nat) (r : Option Response) :
    finishCommand { s with busy := b, rsp := r } = finishCommand s := by
  cases hd : decode s.cmd with
  | ok i =>
    have hd' : decode ({ s with busy := b, rsp := r } : State).cmd = .ok i := hd
    simp only [finishCommand, runCommand_of_decode hd, runCommand_of_decode hd']
    have he := exec_port_irrelevant i s b r s.hostIn
    cases hx : exec i s with
    | next t =>
      rw [hx] at he
      have ht := (exec_port_frame hx).2.2.2
      cases t; cases ht
      exact (congrArg (fun o => match o with
        | Host.Outcome.next t => Host.Outcome.next (respond writeDone t)
        | Host.Outcome.fault f => Host.Outcome.fault f
        | Host.Outcome.refused r => Host.Outcome.refused r) he)
    | fault f => cases f
    | refused q =>
      rw [hx] at he
      exact (congrArg (fun o => match o with
        | Host.Outcome.next t => Host.Outcome.next (respond writeDone t)
        | Host.Outcome.fault f => Host.Outcome.fault f
        | Host.Outcome.refused r => Host.Outcome.refused r) he)
  | error e =>
    have hd' : decode ({ s with busy := b, rsp := r } : State).cmd = .error e := hd
    simp only [finishCommand, runCommand_of_illegal hd, runCommand_of_illegal hd']
    rfl

theorem commandCycle_next {n : Nat} {s t : State} (h : commandCycle n s = .next t) :
    (n = 0 ∧ finishCommand s = .next t) ∨ ∃ m, n = m + 1 ∧ t = waitCycles (m + 1) s := by
  cases n with
  | zero => exact .inl ⟨rfl, h⟩
  | succ m => cases h; exact .inr ⟨m, rfl, rfl⟩

/-- All a step can do when it answers a next state. -/
theorem step_cases {s t : State} (h : step s = .next t) :
    ((pinsNow s).rstN = false ∧ t = holdInReset (nextCycle s))
      ∨ ((pinsNow s).rstN = true ∧ s.inReset = true ∧ t = leaveReset (nextCycle s))
      ∨ ((pinsNow s).rstN = true ∧ s.inReset = false ∧
          ((∃ n, s.busy = n + 1 ∧ commandCycle n (nextCycle s) = .next t)
            ∨ (s.busy = 0 ∧ ∃ a, presented (pinsNow s) = some a ∧ acceptCycle a (nextCycle s) = .next t)
            ∨ (s.busy = 0 ∧ presented (pinsNow s) = none ∧ t = endResponse (nextCycle s)))) := by
  unfold step clockCycle at h
  split at h
  · cases h; exact .inl ⟨‹_›, rfl⟩
  · have hr : (pinsNow s).rstN = true := by simpa using ‹¬ _ = false›
    split at h
    · cases h; exact .inr (.inl ⟨hr, ‹_›, rfl⟩)
    · have hi : s.inReset = false := by simpa using ‹¬ s.inReset = true›
      refine .inr (.inr ⟨hr, hi, ?_⟩)
      split at h
      · exact .inl ⟨_, ‹_›, h⟩
      · split at h
        · exact .inr (.inl ⟨‹_›, _, ‹_›, h⟩)
        · cases h; exact .inr (.inr ⟨‹_›, ‹_›, rfl⟩)

/-- Many cycles, one at a time. -/
theorem stepRepeat_succ {s t : State} (n : Nat) (h : step s = .next t) :
    stepRepeat (n + 1) s = stepRepeat n t := by
  simp only [stepRepeat, h]

@[simp] theorem stepRepeat_one (s : State) : stepRepeat 1 s = step s := by
  cases h : step s <;> simp [stepRepeat, h]

/-- One more command, one at a time. -/
theorem execRepeat_succ {i : Instr} {s t : State} (n : Nat) (h : exec i s = .next t) :
    execRepeat i (n + 1) s = execRepeat i n t := by
  simp only [execRepeat, h]

end Sys2Proof.Machine
end

