-- ==== Sys2Proof/Tests/Slice0.lean ====
section
/-! SUPPORT. Tests: refusals of WellFormed, decoded words, vectors of 95_test_vectors.md, and a witness of
the hypotheses of each statement that has some. -/

namespace Sys2Proof.Tests

open Sys2Proof.Machine

/-- One field of the next state, none if there is no next state. -/
def afterward {α : Type} (o : Host.Outcome State Fault Refusal) (f : State → α) : Option α :=
  match o with
  | .next t => some (f t)
  | .fault _ => none
  | .refused _ => none

/-- The reset state with operands. -/
def withOperands (v : Index) (x y : Word) : State := { State.reset with idxIn := v, xIn := x, yIn := y }

/-- The source's cell (9, 8, 4) as operand (95_test_vectors.md E2). -/
def sample : State := withOperands 0x484C1FFFFFFFFFFF#64 9#32 8#32

/-- An iterator half way through the children of (9, 8, 4) at resolution 5 (95_test_vectors.md P3). -/
def armed : State :=
  { sample with chBase := 0x485C13FFFFFFFFFF#64, chK := 2#64, chN := 4#64, cha := true }

/-! ## WellFormed refuses an operand above 31 (R89) -/

theorem test_wellFormed_pack : (Instr.pack 32).wellFormed = false ∧ (Instr.pack 31).wellFormed = true := by decide
theorem test_wellFormed_parent : (Instr.parent 32).wellFormed = false ∧ (Instr.parent 31).wellFormed = true := by decide
theorem test_wellFormed_children : (Instr.children 32).wellFormed = false ∧ (Instr.children 31).wellFormed = true := by
  decide

/-! ## Decoding, the words written from R80: Z1 (19 bits), R (5), Z0 (4), OP (4) -/

theorem test_decode_nop : decode 0b0000000000000000000_00000_0000_0000#32 = .ok .nop := by rfl
theorem test_decode_pack : decode 0b0000000000000000000_10011_0000_0001#32 = .ok (.pack 19) := by rfl
theorem test_decode_unpack : decode 0b0000000000000000000_00000_0000_0010#32 = .ok .unpack := by rfl
theorem test_decode_check : decode 0b0000000000000000000_00000_0000_0011#32 = .ok .check := by rfl
theorem test_decode_getres : decode 0b0000000000000000000_00000_0000_0100#32 = .ok .getres := by rfl
theorem test_decode_parent : decode 0b0000000000000000000_01000_0000_0101#32 = .ok (.parent 8) := by rfl
theorem test_decode_children : decode 0b0000000000000000000_11111_0000_0110#32 = .ok (.children 31) := by rfl
theorem test_decode_nextchild : decode 0b0000000000000000000_00000_0000_0111#32 = .ok .nextchild := by rfl
theorem test_decode_menc : decode 0b0000000000000000000_00000_0000_1000#32 = .ok .menc := by rfl
theorem test_decode_mdec : decode 0b0000000000000000000_00000_0000_1001#32 = .ok .mdec := by rfl
theorem test_decode_order :
    decode 0b0000000000000000001_00001_0000_1010#32 = .error .reservedBits
      ∧ decode 0b0000000000000000000_00001_0000_1010#32 = .error .reservedOpcode
      ∧ decode 0b0000000000000000000_00001_0000_1001#32 = .error .argumentNotTaken := ⟨rfl, rfl, rfl⟩
theorem test_decodeTableWord : decodeTableWord 32 0x00000401 = some (.pack 4) := by decide

/-! ## Vectors of 95_test_vectors.md -/

/-- §2.10, first row. -/
theorem test_nop_status :
    afterward (exec .nop { State.reset with err := true, errs := true, ecode := 2#4 }) statusWord
      = some 0x00000020#32 := by decide

/-- §2.2, (12345, 54321, 16). -/
theorem test_pack_cell :
    afterward (exec (.pack 16) (withOperands 0 12345#32 54321#32)) State.res = some 0x490A7200F43FFFFF#64 := by decide

/-- §2.2, InvalidResolution wins over TileRange. -/
theorem test_pack_priority :
    afterward (exec (.pack 27) (withOperands 0 0x40000000#32 0)) statusWord = some 0x00000130#32 := by decide

/-- §2.3, z = 4. -/
theorem test_unpack_tile : afterward (exec .unpack sample) (fun t => (t.xOut, t.yOut, t.fOut)) = some (9#32, 8#32, 0x00010104#32) := by
  decide

/-- §2.3, z = 31: no check. -/
theorem test_unpack_res31 :
    afterward (exec .unpack (withOperands 0xFFFFFFFFFFFFFFFF#64 0 0)) (fun t => (t.xOut, t.yOut, t.fOut))
      = some (0x7FFFFFE0#32, 0x7FFFFFE0#32, 0x0003371F#32) := by decide

/-- §2.4, EXTRA = 1. -/
theorem test_check_extra :
    afterward (exec .check (withOperands 0x4B0FFFFFFFFFFFFF#64 0 0)) (fun t => (statusWord t, t.fOut))
      = some (0x00000003#32, 0x00011110#32) := by decide

/-- §2.4, one footer bit missing. -/
theorem test_check_footer :
    afterward (exec .check (withOperands 0x484C1FFFFFFFFFFE#64 0 0)) statusWord = some 0#32 := by decide

/-- §2.5, no header bit. -/
theorem test_getres : afterward (exec .getres (withOperands 0x01F0000000000000#64 0 0)) State.fOut = some 0x0000001F#32 := by
  decide

/-- §2.6, monotonicity: the footer shift is 2p. -/
theorem test_parent_footer :
    afterward (exec (.parent 4) (withOperands 0x485C13FFFFFFFFFF#64 0 0)) State.res = some 0x484C1FFFFFFFFFFF#64 := by decide

/-- §2.6, p > 26 on an operand of resolution 31. -/
theorem test_parent_above26 :
    afterward (exec (.parent 27) (withOperands 0x49F0000000000000#64 0 0)) statusWord = some 0x00000130#32 := by decide

/-- §2.7, the base keeps the footer below the child resolution. -/
theorem test_children_base :
    afterward (exec (.children 26) (withOperands 0x4993FFFFFFFFFFFF#64 0 0)) (fun t => (t.chBase, t.chN, t.cha))
      = some (0x49A3FFFFFFFFFFFC#64, 4#64, true) := by decide

/-- §2.7, the largest enumeration. -/
theorem test_children_count :
    afterward (exec (.children 26) (withOperands 0x480FFFFFFFFFFFFF#64 0 0)) State.chN = some 0x0010000000000000#64 := by decide

/-- §2.7, second row, the third child. -/
theorem test_nextchild_child :
    afterward (exec .nextchild armed) (fun t => (t.res, t.chK, t.cha)) = some (0x485C1BFFFFFFFFFF#64, 3#64, true) := by decide

/-- §2.7, second row, the last child. -/
theorem test_nextchild_last :
    afterward (exec .nextchild { armed with chK := 3#64 }) (fun t => (t.res, t.cha)) = some (0x485C1FFFFFFFFFFF#64, false) := by
  decide

/-- §2.8, last row. -/
theorem test_menc :
    afterward (exec .menc (withOperands 0 0x12345678#32 0x9ABCDEF0#32)) State.res = some 0x838C8FB0B3BCBF40#64 := by decide

/-- §2.9, a cell index read as a bare code. -/
theorem test_mdec : afterward (exec .mdec sample) (fun t => (t.xOut, t.yOut)) = some (0x8A7FFFFF#32, 0x223FFFFF#32) := by
  decide

/-! ## The step, the window, the assembler and the host -/

/-- §2.1, PACK 4 as the first command, by a step. -/
theorem test_step_pack :
    afterward (step (sample.withFetchWord 32 0x00000401)) (fun t => (t.res, t.busy)) = some (0x484C1FFFFFFFFFFF#64, 0) := by decide

/-- §2.1, bit 14 set. -/
theorem test_step_illegal : afterward (step (sample.withFetchWord 32 0x00004401)) statusWord = some 0x00000230#32 := by decide

/-- §2.11, WR 0x14 after IDX_IN = 0. -/
theorem test_write_half :
    afterward (access (.write 0x14#8 0x484C1FFF#32) State.reset) State.idxIn = some 0x484C1FFF00000000#64 := by decide

/-- §2.10, only bit 5 of a STATUS write acts. -/
theorem test_write_status :
    afterward (access (.write 0x04#8 0xFFFFFFDF#32) { State.reset with err := true, errs := true, ecode := 2#4 })
      statusWord = some 0x00000230#32 := by decide

/-- R89, examples and refusals. -/
theorem test_assemble :
    assemble "CHILDREN" (some 1) = some 0x00000106#32 ∧ assemble "PACK" (some 32) = none
      ∧ assemble "NOP" (some 0) = none ∧ offsetNamed "IDX_IN_LO" = some 0x10#8 := by decide

/-- §3, P3 by the host protocol of R147: the last child is in RES and the list is complete. -/
theorem test_host_children :
    (let r := hostRun (hostChildren 0x480FFFFFFFFFFFFF#64 1) 60 (hostStart State.reset)
     (r.2, r.1.block.res, r.1.block.cha)) = (some .halted, 0x481FFFFFFFFFFFFF#64, false) := by decide

/-- R5: the window has one offset for each value of `req_addr`. -/
theorem test_window : Config.windowBytes = 2 ^ 8 := by decide

/-! ## Witnesses: states and operands that meet the hypotheses of the statements -/

/-- A cycle with a write of `v` to `a` presented. -/
def writePins (a : Offset) (v : Word) : Pins :=
  { rstN := true, reqValid := true, reqWrite := true, reqAddr := a, reqWdata := v }

/-- The word PACK 4 in its last cycle. -/
def running : State := sample.withFetchWord 32 0x00000401

theorem witness_StepRunsDecodedCommand :
    Awake running ∧ running.busy = 1 ∧ decode running.cmd = .ok (.pack 4) := ⟨⟨rfl, rfl⟩, rfl, rfl⟩

/-- Each class of illegal words at a boundary: bits 4 and 31, opcodes 0xA and 0xF, R 1 and 31. -/
theorem witness_IllegalWordReportsCode2 :
    (Awake (placeCommand 0x00000010#32 sample) ∧ (placeCommand 0x00000010#32 sample).busy = 1)
      ∧ (0x00000010#32).getLsbD 4 = true ∧ (0x80000001#32).getLsbD 31 = true
      ∧ 0xA ≤ (0x0000000A#32).toNat % 16 ∧ 0xA ≤ (0x0000000F#32).toNat % 16
      ∧ (0x00000100#32).toNat % 16 ∉ [1, 5, 6] ∧ (0x00000100#32).toNat / 256 % 32 ≠ 0
      ∧ (0x00001F09#32).toNat % 16 ∉ [1, 5, 6] ∧ (0x00001F09#32).toNat / 256 % 32 ≠ 0 :=
  ⟨⟨⟨rfl, rfl⟩, rfl⟩, by decide⟩

/-- A legal word, and a word of each reason to be illegal. -/
theorem witness_CommandWriteStoresAndExecutes :
    (decode 0x00000401#32 = .ok (.pack 4)
      ∧ exec (.pack 4) { sample with cmd := 0x00000401#32 }
        = .next { sample with cmd := 0x00000401#32, res := 0x484C1FFFFFFFFFFF#64 })
      ∧ decode 0x00000010#32 = .error .reservedBits ∧ decode 0x0000000A#32 = .error .reservedOpcode
      ∧ decode 0x00000102#32 = .error .argumentNotTaken := ⟨⟨rfl, by rfl⟩, rfl, rfl, rfl⟩

theorem witness_CommandWriteCompletesAfterLatency :
    let s := { sample with hostIn := [writePins 0x00#8 0x00000401#32] }
    Awake s ∧ s.busy = 0 ∧ presented (pinsNow s) = some (.write 0x00#8 0x00000401#32)
      ∧ ∀ k, k < Config.cmdLatency → (s.hostIn.getD k idlePins).rstN = true := by
  refine ⟨⟨rfl, rfl⟩, rfl, rfl, fun k _ => ?_⟩
  cases k <;> rfl

/-- A read, an operand write, and a misaligned write next to CMD. -/
theorem witness_OtherAccessAnsweredNextCycle :
    (let s := { sample with hostIn := [writePins 0x18#8 7#32] }
     Awake s ∧ s.busy = 0 ∧ presented (pinsNow s) = some (.write 0x18#8 7#32))
      ∧ (∀ v, Access.write 0x18#8 7#32 ≠ .write 0x00#8 v) ∧ (∀ v, Access.write 0x01#8 7#32 ≠ .write 0x00#8 v)
      ∧ ∀ v, Access.read 0x00#8 ≠ .write 0x00#8 v := by
  refine ⟨⟨⟨rfl, rfl⟩, rfl, rfl⟩, ?_, ?_, ?_⟩ <;> intro v h <;> simp at h

theorem witness_WaitingAndIdleCyclesChangeNothing :
    (Awake { sample with busy := 2 } ∧ ({ sample with busy := 2 } : State).busy = 0 + 2)
      ∧ Awake sample ∧ sample.busy = 0 ∧ (pinsNow sample).reqValid = false := ⟨⟨⟨rfl, rfl⟩, rfl⟩, ⟨rfl, rfl⟩, rfl, rfl⟩

theorem witness_ResetCycleRestoresResetState :
    (pinsNow { running with hostIn := [{ idlePins with rstN := false }] }).rstN = false
      ∧ (([] : List Pins).headD idlePins).rstN = true := ⟨rfl, rfl⟩

/-- `armed` with a write of 7 to X_IN presented. -/
def armedWriting : State := { armed with hostIn := [writePins 0x18#8 7#32] }

/-- A state with an active iterator meets the invariant, and a step from it answers next. -/
theorem witness_EveryStepKeepsInvariant :
    Inv armedWriting
      ∧ step armedWriting = .next { armed with xIn := 7#32, rsp := some { rdata := 0#32, err := false } } := by
  refine ⟨⟨?_, ?_, ?_, ?_⟩, by rfl⟩
  · unfold StatusOk; decide
  · unfold FieldsOk; decide
  · refine ⟨fun _ => ⟨by decide, by decide, 1, by decide, by decide, by decide, fun i h1 h2 => ?_⟩, (fun h => by cases h)⟩
    have h3 : 42 ≤ i := h1
    have h4 : i < 44 := h2
    interval_cases i <;> rfl
  · exact ⟨Nat.succ_pos _, fun _ => rfl, (fun h => by cases h), (fun r h => by cases h)⟩

/-- Misaligned and aligned offsets at both ends of the window. -/
theorem witness_MisalignedAccessRefused :
    ((0x01#8).getLsbD 0 = true ∧ (0x02#8).getLsbD 1 = true ∧ (0xFF#8).getLsbD 0 = true)
      ∧ ((0x00#8).getLsbD 0 = false ∧ (0x00#8).getLsbD 1 = false)
      ∧ ((0xFC#8).getLsbD 0 = false ∧ (0xFC#8).getLsbD 1 = false) := by decide

theorem witness_ReservedAndReadOnlyOffsets :
    (0x50 ≤ (0x50#8).toNat ∧ (0x50#8).toNat % 4 = 0) ∧ (0x50 ≤ (0xFC#8).toNat ∧ (0xFC#8).toNat % 4 = 0)
      ∧ 0x08#8 ∈ [0x08#8, 0x20#8, 0x24#8, 0x28#8, 0x2C#8, 0x30#8, 0x38#8, 0x3C#8, 0x40#8, 0x44#8, 0x48#8, 0x4C#8] := by
  decide

theorem witness_WrittenOperandReadsBack :
    0x10#8 ∈ [0x10#8, 0x14#8, 0x18#8, 0x1C#8] ∧ 0x1C#8 ∈ [0x10#8, 0x14#8, 0x18#8, 0x1C#8] := by decide

theorem witness_ReadsReturnRegistersAndChangeNothing : (0x00#8).toNat % 4 = 0 ∧ (0xFC#8).toNat % 4 = 0 := by decide

theorem witness_NonCommandAccessIsIdempotent :
    (∀ v, Access.write 0x04#8 0x20#32 ≠ .write 0x00#8 v)
      ∧ access (.write 0x04#8 0x20#32) { sample with errs := true }
        = .next { sample with rsp := some { rdata := 0#32, err := false } } := by
  refine ⟨fun v h => ?_, by rfl⟩
  simp at h

/-- Each code a command can report. -/
theorem witness_FailedCommandWritesOnlyErrorFields :
    (∃ t, exec (.pack 27) sample = .next t ∧ t.err = true ∧ t.ecode = 1#4)
      ∧ (∃ t, exec (.pack 3) sample = .next t ∧ t.err = true ∧ t.ecode = 3#4)
      ∧ ∃ t, exec .nextchild sample = .next t ∧ t.err = true ∧ t.ecode = 4#4 :=
  ⟨⟨_, by rfl, by rfl, by rfl⟩, ⟨_, by rfl, by rfl, by rfl⟩, ⟨_, by rfl, by rfl, by rfl⟩⟩

/-- Every command completes without error somewhere (WriterTable, ErrsAccumulates). -/
theorem witness_WriterTable :
    ∀ i ∈ [Instr.nop, .pack 4, .unpack, .check, .getres, .parent 2, .children 5, .nextchild, .menc, .mdec],
      afterward (exec i armed) State.err = some false := by decide

theorem witness_CommandDependsOnItsOperandsOnly :
    OperandsAgree (.pack 4) sample { armed with idxIn := 0#64 }
      ∧ OperandsAgree .nextchild armed { armed with idxIn := 0#64, xIn := 0#32 } := ⟨⟨rfl, rfl⟩, ⟨rfl, rfl, rfl, rfl⟩⟩

theorem witness_SpreadPlacesBits : (0xFFFFFFFF#64).toNat < 2 ^ 32 ∧ (0#64).toNat < 2 ^ 32 := by decide

theorem witness_CompactTakesEvenBits :
    (∀ i, i < 32 → (0x484C1FFFFFFFFFFF#64).getLsbD (2 * i) = (0x484C1FFFFFFFFFFF#64 ||| maskB0 <<< 1).getLsbD (2 * i))
      ∧ (0xFFFFFFFF#64).toNat < 2 ^ 32 := by
  refine ⟨fun i h => ?_, by decide⟩
  interval_cases i <;> rfl

/-- Legal tiles at z = 0, 4 and 26, the last with the largest coordinates (PackClosedForm,
PackUnpackRoundTrip, MencLaw). -/
theorem witness_PackClosedForm :
    ((0#32).toNat < 2 ^ 0) ∧ (sample.xIn.toNat < 2 ^ 4 ∧ sample.yIn.toNat < 2 ^ 4) ∧ (0x03FFFFFF#32).toNat < 2 ^ 26 := by
  decide

/-- PACK's refusals at the edges: z = 27, x = 2^26 at z = 26, x = 1 at z = 0. -/
theorem witness_PackRefusals : 26 < 27 ∧ 2 ^ 26 ≤ (0x04000000#32).toNat ∧ 2 ^ 0 ≤ (1#32).toNat := by decide

/-- UNPACK then PACK, on a canonical cell and on a valid cell with EXTRA bits. -/
theorem witness_PackUnpackRoundTrip :
    (∃ t, exec .unpack sample = .next t ∧ t.xOut = sample.xIn ∧ t.yOut = sample.yIn)
      ∧ canonicalCell sample.idxIn = true
      ∧ validCell 0x4A4C1FFFFFFFFFFF#64 = true ∧ canonicalCell 0x4A4C1FFFFFFFFFFF#64 = false :=
  ⟨⟨_, by rfl, by rfl, by rfl⟩, by decide⟩

theorem witness_PackResultIsCanonical :
    (∃ t, exec (.pack 4) sample = .next t ∧ t.err = false ∧ sample.idxIn = t.res)
      ∧ (∃ t, exec .check State.reset = .next t ∧ State.reset.idxIn = 0#64)
      ∧ ((0x084C1FFFFFFFFFFF#64).getLsbD 62 = false)
      ∧ 0 + 2 * resOf 0x484C1FFFFFFFFFFE#64 < 52 ∧ (0x484C1FFFFFFFFFFE#64).getLsbD 0 = false :=
  ⟨⟨_, by rfl, by rfl, by rfl⟩, ⟨_, by rfl, by rfl⟩, by decide⟩

/-- p = 0, p = 4 = res and p = 26 on resolution 31. -/
theorem witness_ParentClosedForm :
    (4 ≤ 26 ∧ 4 ≤ resOf sample.idxIn ∧ validCell sample.idxIn = true) ∧ 26 ≤ resOf 0x49F0000000000000#64 := by decide

theorem witness_ParentRefusals : 26 < 27 ∧ resOf sample.idxIn < 5 := by decide

theorem witness_ParentLaws :
    (validIndex sample.idxIn = true ∧ canonicalCell sample.idxIn = true ∧ 1 ≤ 3 ∧ 3 ≤ resOf sample.idxIn)
      ∧ ∃ t, exec (.parent 3) sample = .next t ∧ t.err = false := ⟨by decide, ⟨_, by rfl, by rfl⟩⟩

/-- c = res + 1, and the widest c = 26 on resolution 0 (ChildrenArmsTheIterator, EnumerationLaws). -/
theorem witness_ChildrenArmsTheIterator :
    (5 ≤ 26 ∧ resOf sample.idxIn < 5) ∧ (26 ≤ 26 ∧ resOf 0x480FFFFFFFFFFFFF#64 < 26)
      ∧ ∃ t, exec (.children 5) sample = .next t := ⟨by decide, by decide, ⟨_, by rfl⟩⟩

theorem witness_ChildrenRefusalKeepsIterator : 26 < 27 ∧ 4 ≤ resOf sample.idxIn ∧ 26 ≤ resOf 0x49AFFFFFFFFFFFFF#64 := by
  decide

theorem witness_NextchildHandsOutTheChild : armed.cha = true ∧ resOf armed.chBase ≤ 26 := by decide

theorem witness_NextchildWithoutIteration : State.reset.cha = false := rfl

theorem witness_ChildTileFormula :
    (∃ t, exec (.children 5) sample = .next t ∧ t.err = false)
      ∧ (3#64).toNat < 4 ^ (5 - resOf sample.idxIn) ∧ (2#64).toNat < (3#64).toNat ∧ validCell sample.idxIn = true :=
  ⟨⟨_, by rfl, by rfl⟩, by decide⟩

/-- Two children one after the other, so that the order clause has its states. -/
theorem witness_EnumerationLaws :
    (∃ t, exec (.children 5) sample = .next t
        ∧ (∃ u, execRepeat .nextchild 1 t = .next u) ∧ ∃ w, execRepeat .nextchild 4 t = .next w)
      ∧ 3 < 4 ^ (5 - resOf sample.idxIn) ∧ validCell sample.idxIn = true
      ∧ ∀ i, i + 2 * resOf sample.idxIn < 52 → sample.idxIn.getLsbD i = true := by
  refine ⟨⟨_, by rfl, ⟨_, by rfl⟩, ⟨_, by rfl⟩⟩, by decide, by decide, fun i h => ?_⟩
  have hr : resOf sample.idxIn = 4 := by decide
  have h' : i < 44 := by omega
  interval_cases i <;> rfl

theorem witness_OnlyTwoCommandsMoveTheIterator :
    (Instr.parent 2 ≠ .nextchild ∧ (∀ c, Instr.parent 2 ≠ .children c) ∧ ∃ t, exec (.parent 2) armed = .next t)
      ∧ (∀ v, Access.write 0x10#8 0#32 ≠ .write 0x00#8 v) ∧ ∃ t, access (.write 0x10#8 0#32) armed = .next t :=
  ⟨⟨by decide, (fun _ h => by cases h), ⟨_, by rfl⟩⟩, (fun v h => by simp at h), ⟨_, by rfl⟩⟩

/-- MENC and MDEC of the aligned lanes and of the payload of (9, 8, 4) (MencLaw, MdecLaw). -/
theorem witness_MencLaw :
    (∃ t, exec (.pack 4) sample = .next t)
      ∧ ∃ t, exec .menc (withOperands 0 (sample.xIn <<< (32 - 4)) (sample.yIn <<< (32 - 4))) = .next t :=
  ⟨⟨_, by rfl⟩, ⟨_, by rfl⟩⟩

theorem witness_MdecLaw :
    (∃ t u, exec .menc sample = .next t ∧ exec .mdec (withOperands t.res 0 0) = .next u)
      ∧ ∃ t, exec .mdec (withOperands ((sample.idxIn &&& 0x000FFFFFFFFFFFFF#64) <<< 12) 0 0) = .next t :=
  ⟨⟨_, _, by rfl, by rfl⟩, ⟨_, by rfl⟩⟩

theorem witness_ResetValues : (0x00#8).toNat % 4 = 0 ∧ (0xFC#8).toNat % 4 = 0 ∧ idlePins.rstN = true ∧ idlePins.reqValid = false := by
  decide

end Sys2Proof.Tests
end

section
/-! PROOFS. The guarded equations of the commands that can fail, one per branch of their rules
(40_codec.md R116, 41_hierarchy.md R140, R143, R145). Unlike the `_cases` lemmas they run a command in a
second state, once its guard is known there. -/

namespace Sys2Proof.Machine

theorem execPack_of_maxRes_lt {z : Nat} (s : State) (hz : Config.maxRes < z) :
    execPack z s = .next (raise .invalidResolution s) := by
  simp [execPack, hz]

theorem execPack_of_tile_out_of_range {z : Nat} {s : State} (hz : z ≤ Config.maxRes)
    (htile : tileInRange z s.xIn s.yIn = false) : execPack z s = .next (raise .tileRange s) := by
  simp [execPack, hz.not_gt, htile]

theorem execPack_of_tile_in_range {z : Nat} {s : State} (hz : z ≤ Config.maxRes)
    (htile : tileInRange z s.xIn s.yIn = true) :
    execPack z s = .next (complete (setRes (packIndex z s.xIn s.yIn) s)) := by
  simp [execPack, hz.not_gt, htile]

theorem execParent_of_bad_res {p : Nat} {s : State} (hp : Config.maxRes < p ∨ resOf s.idxIn < p) :
    execParent p s = .next (raise .invalidResolution s) := by
  simp [execParent, hp]

theorem execParent_of_le {p : Nat} {s : State} (hmax : p ≤ Config.maxRes) (hres : p ≤ resOf s.idxIn) :
    execParent p s = .next (complete (setRes (parentIndex s.idxIn p) s)) := by
  simp [execParent, hmax.not_gt, hres.not_gt]

theorem execChildren_of_bad_res {c : Nat} {s : State} (hc : Config.maxRes < c ∨ c ≤ resOf s.idxIn) :
    execChildren c s = .next (raise .invalidResolution s) := by
  simp [execChildren, hc]

theorem execChildren_of_lt {c : Nat} {s : State} (hmax : c ≤ Config.maxRes) (hres : resOf s.idxIn < c) :
    execChildren c s =
      .next (complete (armIterator (childBase s.idxIn c) (childCount (c - resOf s.idxIn)) s)) := by
  simp [execChildren, hmax.not_gt, hres.not_ge]

theorem execNextchild_of_inactive {s : State} (hcha : s.cha = false) :
    execNextchild s = .next (raise .noIteration s) := by
  simp [execNextchild, hcha]

theorem execNextchild_of_active {s : State} (hcha : s.cha = true) :
    execNextchild s = .next (complete (advanceIterator (setRes (childAt s.chBase s.chK) s))) := by
  simp [execNextchild, hcha]

end Sys2Proof.Machine
end

section
/-! PROOFS. The last cycle of a CMD write (20_memory.md R62, 30_encoding.md R85). -/

namespace Sys2Proof.Machine

/-- A block out of reset with a command in progress spends the cycle on that command. -/
theorem step_of_busy {s : State} {n : Nat} (hawake : Awake s) (hbusy : s.busy = n + 1) :
    step s = commandCycle n (nextCycle s) := by
  obtain ⟨hrst, hreset⟩ := hawake
  simp [step, clockCycle, hrst, hreset, hbusy]

/-- Settles O5: the last cycle finishes the command, and taking the pins off leaves CMD as it is. -/
theorem stepRunsDecodedCommand : Obligations.StepRunsDecodedCommand := by
  intro s i hawake hbusy hdec
  have hdec' : decode (nextCycle s).cmd = .ok i := hdec
  calc step s
    _ = finishCommand (nextCycle s) := step_of_busy hawake hbusy
    _ = _ := by
      rw [finishCommand, runCommand_of_decode hdec']
      rfl

end Sys2Proof.Machine
end

section
/-! PROOFS. A command is a function of its operands (00_scope.md R10, 10_state.md R22): in two states
that agree on them it takes the same branch of its rule and writes the same values. -/

namespace Sys2Proof.Machine

/-- A command ends in two states with the same error, or with the same results. -/
def EndsAlike (i : Instr) (s s' : State) : Prop :=
  ∃ t t', exec i s = .next t ∧ exec i s' = .next t' ∧ t.err = t'.err ∧ t.ecode = t'.ecode
    ∧ (t.err = false → ResultsAgree i t t')

theorem endsAlike_of_raise {i : Instr} {s s' : State} {e : CmdError}
    (h : exec i s = .next (raise e s)) (h' : exec i s' = .next (raise e s')) : EndsAlike i s s' :=
  ⟨_, _, h, h', rfl, rfl, fun hok => by simp at hok⟩

theorem endsAlike_of_complete {i : Instr} {s s' u u' : State}
    (h : exec i s = .next (complete u)) (h' : exec i s' = .next (complete u'))
    (hres : ResultsAgree i (complete u) (complete u')) : EndsAlike i s s' :=
  ⟨_, _, h, h', rfl, rfl, fun _ => hres⟩

theorem pack_endsAlike {z : Nat} {s s' : State} (hx : s.xIn = s'.xIn) (hy : s.yIn = s'.yIn) :
    EndsAlike (.pack z) s s' := by
  rcases execPack_cases z s with ⟨hz, h⟩ | ⟨hz, htile, h⟩ | ⟨hz, htile, h⟩
  · exact endsAlike_of_raise h (execPack_of_maxRes_lt s' hz)
  · rw [hx, hy] at htile
    exact endsAlike_of_raise h (execPack_of_tile_out_of_range hz htile)
  · rw [hx, hy] at htile
    exact endsAlike_of_complete h (execPack_of_tile_in_range hz htile) (by simp [ResultsAgree, hx, hy])

theorem parent_endsAlike {p : Nat} {s s' : State} (hidx : s.idxIn = s'.idxIn) :
    EndsAlike (.parent p) s s' := by
  rcases execParent_cases p s with ⟨hp, h⟩ | ⟨hmax, hres, h⟩
  · rw [hidx] at hp
    exact endsAlike_of_raise h (execParent_of_bad_res hp)
  · rw [hidx] at hres
    exact endsAlike_of_complete h (execParent_of_le hmax hres) (by simp [ResultsAgree, hidx])

theorem children_endsAlike {c : Nat} {s s' : State} (hidx : s.idxIn = s'.idxIn) :
    EndsAlike (.children c) s s' := by
  rcases execChildren_cases c s with ⟨hc, h⟩ | ⟨hmax, hres, h⟩
  · rw [hidx] at hc
    exact endsAlike_of_raise h (execChildren_of_bad_res hc)
  · rw [hidx] at hres
    exact endsAlike_of_complete h (execChildren_of_lt hmax hres) (by simp [ResultsAgree, hidx])

theorem advanceIterator_cha_congr {u u' : State} (hk : u.chK = u'.chK) (hn : u.chN = u'.chN)
    (hcha : u.cha = u'.cha) : (advanceIterator u).cha = (advanceIterator u').cha := by
  rw [advanceIterator_cha, advanceIterator_cha, hk, hn, hcha]

/-- NEXTCHILD reads the iterator only (41_hierarchy.md R145). -/
theorem nextchild_endsAlike {s s' : State} (hbase : s.chBase = s'.chBase) (hk : s.chK = s'.chK)
    (hn : s.chN = s'.chN) (hcha : s.cha = s'.cha) : EndsAlike .nextchild s s' := by
  rcases execNextchild_cases s with ⟨hc, h⟩ | ⟨hc, h⟩
  · rw [hcha] at hc
    exact endsAlike_of_raise h (execNextchild_of_inactive hc)
  · rw [hcha] at hc
    refine endsAlike_of_complete h (execNextchild_of_active hc) ⟨?res, ?chK, ?cha⟩
    case res => simp [hbase, hk]
    case chK => simp [hk]
    case cha => exact advanceIterator_cha_congr hk hn hcha

/-- Settles O25: by cases on the command; the four that can fail have a lemma each, and the others
complete in every state. -/
theorem commandDependsOnItsOperandsOnly : Obligations.CommandDependsOnItsOperandsOnly := by
  intro i s s' hop
  change EndsAlike i s s'
  cases i with
  | nop => exact endsAlike_of_complete (execNop_eq s) (execNop_eq s') trivial
  | pack z =>
    obtain ⟨hx, hy⟩ := hop
    exact pack_endsAlike hx hy
  | unpack =>
    have hidx : s.idxIn = s'.idxIn := hop
    exact endsAlike_of_complete (execUnpack_eq s) (execUnpack_eq s') (by simp [ResultsAgree, hidx])
  | check =>
    have hidx : s.idxIn = s'.idxIn := hop
    exact endsAlike_of_complete (execCheck_eq s) (execCheck_eq s') (by simp [ResultsAgree, hidx])
  | getres =>
    have hidx : s.idxIn = s'.idxIn := hop
    exact endsAlike_of_complete (execGetres_eq s) (execGetres_eq s') (by simp [ResultsAgree, hidx])
  | parent p => exact parent_endsAlike hop
  | children c => exact children_endsAlike hop
  | nextchild =>
    obtain ⟨hbase, hk, hn, hcha⟩ := hop
    exact nextchild_endsAlike hbase hk hn hcha
  | menc =>
    obtain ⟨hx, hy⟩ := hop
    exact endsAlike_of_complete (execMenc_eq s) (execMenc_eq s') (by simp [ResultsAgree, hx, hy])
  | mdec =>
    have hidx : s.idxIn = s'.idxIn := hop
    exact endsAlike_of_complete (execMdec_eq s) (execMdec_eq s') (by simp [ResultsAgree, hidx])

end Sys2Proof.Machine
end

section
/-! PROOFS. What a command does, for all ten at once: it reports one of its errors, or its guard held
and it completes with the writes of its line of the writer table (10_state.md R43). -/

namespace Sys2Proof.Machine

/-- The writes of a command that completes, before ERR and ECODE are cleared (R43). -/
def commandWrites (i : Instr) (s : State) : State :=
  match i with
  | .nop => s
  | .pack z => setRes (packIndex z s.xIn s.yIn) s
  | .unpack => setFields s.idxIn (setTile (unpackX s.idxIn) (unpackY s.idxIn) s)
  | .check => setFields s.idxIn (setCheckFlags s.idxIn s)
  | .getres => setFields s.idxIn s
  | .parent p => setRes (parentIndex s.idxIn p) s
  | .children c => armIterator (childBase s.idxIn c) (childCount (c - resOf s.idxIn)) s
  | .nextchild => advanceIterator (setRes (childAt s.chBase s.chK) s)
  | .menc => setRes (interleave (s.xIn.setWidth 64) (s.yIn.setWidth 64)) s
  | .mdec => setTile ((evenBits s.idxIn).setWidth 32) ((oddBits s.idxIn).setWidth 32) s

/-- The guard under which a command completes without error (60_exceptions.md R201). -/
def CommandAccepts (i : Instr) (s : State) : Prop :=
  match i with
  | .pack z => z ≤ Config.maxRes ∧ tileInRange z s.xIn s.yIn = true
  | .parent p => p ≤ Config.maxRes ∧ p ≤ resOf s.idxIn
  | .children c => c ≤ Config.maxRes ∧ resOf s.idxIn < c
  | .nextchild => s.cha = true
  | .nop | .unpack | .check | .getres | .menc | .mdec => True

theorem exec_cases (i : Instr) (s : State) :
    (∃ e, exec i s = .next (raise e s))
      ∨ (CommandAccepts i s ∧ exec i s = .next (complete (commandWrites i s))) := by
  cases i with
  | nop => exact .inr ⟨trivial, execNop_eq s⟩
  | pack z =>
    rcases execPack_cases z s with ⟨-, h⟩ | ⟨-, -, h⟩ | ⟨hz, htile, h⟩
    · exact .inl ⟨_, h⟩
    · exact .inl ⟨_, h⟩
    · exact .inr ⟨⟨hz, htile⟩, h⟩
  | unpack => exact .inr ⟨trivial, execUnpack_eq s⟩
  | check => exact .inr ⟨trivial, execCheck_eq s⟩
  | getres => exact .inr ⟨trivial, execGetres_eq s⟩
  | parent p =>
    rcases execParent_cases p s with ⟨-, h⟩ | ⟨hmax, hres, h⟩
    · exact .inl ⟨_, h⟩
    · exact .inr ⟨⟨hmax, hres⟩, h⟩
  | children c =>
    rcases execChildren_cases c s with ⟨-, h⟩ | ⟨hmax, hres, h⟩
    · exact .inl ⟨_, h⟩
    · exact .inr ⟨⟨hmax, hres⟩, h⟩
  | nextchild =>
    rcases execNextchild_cases s with ⟨-, h⟩ | ⟨hcha, h⟩
    · exact .inl ⟨_, h⟩
    · exact .inr ⟨hcha, h⟩
  | menc => exact .inr ⟨trivial, execMenc_eq s⟩
  | mdec => exact .inr ⟨trivial, execMdec_eq s⟩

theorem exec_answers_next (i : Instr) (s : State) : ∃ t, exec i s = .next t := by
  rcases exec_cases i s with ⟨e, h⟩ | ⟨-, h⟩ <;> exact ⟨_, h⟩

/-- The next state of a command: an error report, or the completed writes. -/
theorem exec_next_cases {i : Instr} {s t : State} (h : exec i s = .next t) :
    (∃ e, t = raise e s) ∨ (CommandAccepts i s ∧ t = complete (commandWrites i s)) := by
  rcases exec_cases i s with ⟨e, h'⟩ | ⟨hguard, h'⟩ <;> cases h'.symm.trans h
  · exact .inl ⟨e, rfl⟩
  · exact .inr ⟨hguard, rfl⟩

@[simp] theorem commandWrites_cmd (i : Instr) (s : State) : (commandWrites i s).cmd = s.cmd := by
  cases i <;> rfl

@[simp] theorem commandWrites_errs (i : Instr) (s : State) : (commandWrites i s).errs = s.errs := by
  cases i <;> rfl

theorem exec_cmd {i : Instr} {s t : State} (h : exec i s = .next t) : t.cmd = s.cmd := by
  rcases exec_next_cases h with ⟨e, rfl⟩ | ⟨-, rfl⟩ <;> simp

/-- Only CHILDREN and NEXTCHILD write the iterator (R41, R43). -/
theorem commandWrites_iterator {i : Instr} (s : State) (hnext : i ≠ .nextchild)
    (hchildren : ∀ c, i ≠ .children c) :
    (commandWrites i s).chBase = s.chBase ∧ (commandWrites i s).chK = s.chK
      ∧ (commandWrites i s).chN = s.chN ∧ (commandWrites i s).cha = s.cha := by
  cases i with
  | children c => exact absurd rfl (hchildren c)
  | nextchild => exact absurd rfl hnext
  | _ => simp [commandWrites]

/-- Settles O23: an error report is R203's record; a completed command shows its line of the table by
its own writes. -/
theorem writerTable : Obligations.WriterTable := by
  intro i s t h
  rcases exec_next_cases h with ⟨e, rfl⟩ | ⟨hguard, rfl⟩
  · exact ⟨fun _ => raise_eq e s, fun hok => by simp at hok⟩
  · refine ⟨fun herr => by simp at herr, fun _ => ?_⟩
    cases i <;> rfl

/-- Settles O24: an error report sets ERRS and a code that is not 0; a completed command keeps ERRS and
clears the code. -/
theorem errsAccumulates : Obligations.ErrsAccumulates := by
  intro i s t h
  rcases exec_next_cases h with ⟨e, rfl⟩ | ⟨-, rfl⟩
  · simp
  · simp

end Sys2Proof.Machine
end

section
/-! PROOFS. The register window (20_memory.md R64 to R67): the 64-bit registers as their words, what a
register reads after another was written, and the accesses as equations. -/

namespace Sys2Proof.Machine

theorem loWord_toNat (v : Index) : (loWord v).toNat = v.toNat % 2 ^ 32 := by
  simp [loWord, BitVec.extractLsb'_toNat]

theorem hiWord_toNat (v : Index) : (hiWord v).toNat = v.toNat / 2 ^ 32 := by
  have hv := v.isLt
  simp only [hiWord, BitVec.extractLsb'_toNat, Nat.shiftRight_eq_div_pow]
  omega

theorem joinWords_toNat (hi lo : Word) : (joinWords hi lo).toNat = hi.toNat * 2 ^ 32 + lo.toNat := by
  calc (joinWords hi lo).toNat
    _ = hi.toNat <<< 32 ||| lo.toNat := BitVec.toNat_append hi lo
    _ = hi.toNat <<< 32 + lo.toNat := (Nat.shiftLeft_add_eq_or_of_lt lo.isLt hi.toNat).symm
    _ = hi.toNat * 2 ^ 32 + lo.toNat := by rw [Nat.shiftLeft_eq]

/-- A 64-bit register is read in two words, the high one 4 above the low one (R65). -/
theorem loWord_add_hiWord (v : Index) : (loWord v).toNat + (hiWord v).toNat * 2 ^ 32 = v.toNat := by
  rw [loWord_toNat, hiWord_toNat]
  omega

theorem offsetOf_inj {q r : WinReg} : offsetOf q = offsetOf r ↔ q = r := by
  refine ⟨fun h => ?_, fun h => by rw [h]⟩
  have hreg : some q = some r := by rw [← regAt_offsetOf q, h, regAt_offsetOf]
  exact Option.some.inj hreg

theorem misaligned_of_mod_four {a : Offset} (h : a.toNat % 4 = 0) : misaligned a = false := by
  revert a; decide

@[simp] theorem readReg_respond (q : WinReg) (p : Response) (s : State) :
    readReg q (respond p s) = readReg q s := by
  cases q <;> rfl

@[simp] theorem windowValue_respond (a : Offset) (p : Response) (s : State) :
    windowValue a (respond p s) = windowValue a s := by
  unfold windowValue
  split <;> simp

@[simp] theorem readResponse_respond (a : Offset) (p : Response) (s : State) :
    readResponse a (respond p s) = readResponse a s := by
  simp [readResponse]

@[simp] theorem windowValue_offsetOf (r : WinReg) (s : State) :
    windowValue (offsetOf r) s = readReg r s := by
  simp [windowValue]

@[simp] theorem readResponse_offsetOf (r : WinReg) (s : State) :
    readResponse (offsetOf r) s = { rdata := readReg r s, err := false } := by
  simp [readResponse, offsetOf_aligned]

theorem access_read (a : Offset) (s : State) :
    access (.read a) s = .next (respond (readResponse a s) s) := rfl

theorem startsCommand_offsetOf (r : WinReg) (v : Word) :
    startsCommand (.write (offsetOf r) v) = (r == .cmd) := by
  cases r <;> rfl

/-- A write to a register other than CMD stores and is answered (R67). -/
theorem access_write_offsetOf {r : WinReg} (hr : r ≠ .cmd) (v : Word) (s : State) :
    access (.write (offsetOf r) v) s = .next (respond writeDone (writeReg r v s)) := by
  have hstart : startsCommand (.write (offsetOf r) v) = false := by simp [startsCommand_offsetOf, hr]
  simp [access_of_not_startsCommand s hstart, writeResponse, offsetOf_aligned]

/-- A CMD write stores its word and executes it (10_state.md R30, R67). -/
theorem access_write_cmd (w : Word) (s : State) :
    access (.write (offsetOf .cmd) w) s = finishCommand { s with cmd := w } := by
  have hstart : startsCommand (.write (offsetOf .cmd) w) = true := rfl
  simp [access, hstart, writeReg]

theorem startsCommand_eq_false {a : Access} (h : ∀ v, a ≠ .write (offsetOf .cmd) v) :
    startsCommand a = false := by
  cases a with
  | read o => rfl
  | write o v =>
    have ho : o ≠ offsetOf .cmd := fun ho => h v (by rw [ho])
    simpa [startsCommand] using ho

/-! ## The operand registers -/

/-- The registers whose writes store the word and do nothing else (10_state.md R23 to R25). -/
def IsOperand (r : WinReg) : Prop := r = .idxInLo ∨ r = .idxInHi ∨ r = .xIn ∨ r = .yIn

theorem readReg_writeReg_same {r : WinReg} (hr : IsOperand r) (v : Word) (s : State) :
    readReg r (writeReg r v s) = v := by
  rcases hr with rfl | rfl | rfl | rfl <;> simp [readReg, writeReg, setLoWord, setHiWord]

theorem readReg_writeReg_other {q r : WinReg} (hr : IsOperand r) (hq : q ≠ r) (v : Word) (s : State) :
    readReg q (writeReg r v s) = readReg q s := by
  rcases hr with rfl | rfl | rfl | rfl <;> cases q <;>
    simp_all [readReg, writeReg, setLoWord, setHiWord, statusWord]

/-- Writing an operand touches the operand registers only. -/
theorem writeReg_operand_frame {r : WinReg} (hr : IsOperand r) (v : Word) (s : State) :
    writeReg r v s =
      { s with
        idxIn := (writeReg r v s).idxIn, xIn := (writeReg r v s).xIn, yIn := (writeReg r v s).yIn } := by
  rcases hr with rfl | rfl | rfl | rfl <;> rfl

/-- The whole window after an operand write: the word at its offset, elsewhere what was there. -/
theorem readResponse_writeReg {r : WinReg} (hr : IsOperand r) (b : Offset) (v : Word) (s : State) :
    readResponse b (writeReg r v s) =
      if b = offsetOf r then { rdata := v, err := false } else readResponse b s := by
  by_cases hb : b = offsetOf r
  · subst hb
    simp [readReg_writeReg_same hr]
  · rw [if_neg hb]
    cases hreg : regAt b with
    | none => simp [readResponse, windowValue, hreg]
    | some q =>
      obtain rfl := offsetOf_of_regAt hreg
      have hq : q ≠ r := fun h => hb (by rw [h])
      simp [readReg_writeReg_other hr hq]

/-- The four operand offsets of the map (R64) are those of the operand registers. -/
theorem exists_operand_of_mem {a : Offset} (ha : a ∈ [0x10#8, 0x14#8, 0x18#8, 0x1C#8]) :
    ∃ r, IsOperand r ∧ a = offsetOf r := by
  simp only [List.mem_cons, List.not_mem_nil, or_false] at ha
  rcases ha with rfl | rfl | rfl | rfl
  · exact ⟨.idxInLo, by simp [IsOperand], rfl⟩
  · exact ⟨.idxInHi, by simp [IsOperand], rfl⟩
  · exact ⟨.xIn, by simp [IsOperand], rfl⟩
  · exact ⟨.yIn, by simp [IsOperand], rfl⟩

theorem writeReg_idxInLo_toNat (v : Word) (s : State) :
    (writeReg .idxInLo v s).idxIn.toNat = s.idxIn.toNat / 2 ^ 32 * 2 ^ 32 + v.toNat := by
  simp only [writeReg, setLoWord, joinWords_toNat, hiWord_toNat]

theorem writeReg_idxInHi_toNat (v : Word) (s : State) :
    (writeReg .idxInHi v s).idxIn.toNat = v.toNat * 2 ^ 32 + s.idxIn.toNat % 2 ^ 32 := by
  simp only [writeReg, setHiWord, joinWords_toNat, loWord_toNat]

/-- Settles O17: the write is the store of one operand register, so the window reads as
`readResponse_writeReg` says. -/
theorem writtenOperandReadsBack : Obligations.WrittenOperandReadsBack := by
  intro s a v ha
  obtain ⟨r, hr, rfl⟩ := exists_operand_of_mem ha
  have hcmd : r ≠ .cmd := by rintro rfl; simp [IsOperand] at hr
  refine ⟨_, access_write_offsetOf hcmd v s, ?frame, ?reads, ?lo, ?hi⟩
  case frame =>
    conv_lhs => rw [writeReg_operand_frame hr]
    rfl
  case reads =>
    intro b
    rw [access_read, readResponse_respond, readResponse_writeReg hr]
    rfl
  case lo =>
    intro h
    obtain rfl : r = .idxInLo := offsetOf_inj.mp h
    exact writeReg_idxInLo_toNat v s
  case hi =>
    intro h
    obtain rfl : r = .idxInHi := offsetOf_inj.mp h
    exact writeReg_idxInHi_toNat v s

/-- Settles O18: the write is `writeStatus`, whose only test is bit 5. -/
theorem statusWriteClearsOnlyErrs : Obligations.StatusWriteClearsOnlyErrs := by
  intro s v
  calc access (.write 0x04#8 v) s
    _ = .next (respond writeDone (writeStatus v s)) := access_write_offsetOf (r := .status) (by decide) v s
    _ = _ := by
      unfold writeStatus
      split <;> rfl

/-- Settles O20: the function is the window's value, at each offset its register. -/
theorem readsReturnRegistersAndChangeNothing : Obligations.ReadsReturnRegistersAndChangeNothing := by
  intro s
  refine ⟨fun a => windowValue a s, fun a ha => ?_, rfl, rfl, rfl, rfl, rfl, rfl, rfl,
    loWord_add_hiWord s.idxIn, loWord_add_hiWord s.res, loWord_add_hiWord s.chBase,
    loWord_add_hiWord s.chK, loWord_add_hiWord s.chN⟩
  rw [access_read, readResponse, misaligned_of_mod_four ha]
  rfl

end Sys2Proof.Machine
end

section
/-! PROOFS. The layouts of the two packed words a host reads, STATUS (10_state.md R31, R37) and F_OUT
(R29, 40_codec.md R113), bit by bit. -/

namespace Sys2Proof.Machine

/-- STATUS, every bit (R31); bits 6, 7 and 12 to 31 are reserved (R37). -/
theorem statusWord_getLsbD (s : State) (i : Nat) :
    (statusWord s).getLsbD i =
      if i = 0 then s.vi else if i = 1 then s.vc else if i = 2 then s.can else if i = 3 then s.cha
      else if i = 4 then s.err else if i = 5 then s.errs else if i < 8 then false
      else s.ecode.getLsbD (i - 8) := by
  simp only [statusWord, BitVec.getLsbD_append, BitVec.getLsbD_ofBool, BitVec.getLsbD_zero]
  by_cases hi : i < 12
  · interval_cases i <;> simp
  · obtain ⟨k, rfl⟩ := Nat.exists_eq_add_of_le' (Nat.le_of_not_lt hi)
    simp

/-- F_OUT of an index, every bit (R113): Z, MODE, EXTRA, and HDR and TOP together. -/
theorem fieldsWord_getLsbD (v : Index) (i : Nat) :
    (fieldsWord v).getLsbD i =
      if i < 5 then v.getLsbD (52 + i) else if i < 8 then false
      else if i < 11 then v.getLsbD (51 + i) else if i < 12 then false
      else if i < 14 then v.getLsbD (45 + i) else if i < 16 then false
      else if i < 18 then v.getLsbD (46 + i) else false := by
  simp only [fieldsWord, resField, modeField, extraField, hdrBit, topBit, BitVec.getLsbD_or,
    BitVec.getLsbD_shiftLeft, BitVec.getLsbD_setWidth, BitVec.getLsbD_extractLsb']
  by_cases hi : i < 18
  · interval_cases i <;> simp
  · obtain ⟨k, rfl⟩ := Nat.exists_eq_add_of_le' (Nat.le_of_not_lt hi)
    simp +arith

/-- Settles O19: a read of the STATUS offset answers `statusWord`, whose bits are known. -/
theorem statusReadLayout : Obligations.StatusReadLayout := by
  intro s
  refine ⟨statusWord s, ?read, ?vi, ?vc, ?can, ?cha, ?err, ?errs, ?ecode, ?reserved⟩
  case read =>
    calc access (.read 0x04#8) s
      _ = .next (respond (readResponse (offsetOf .status) s) s) := access_read _ s
      _ = _ := by rw [readResponse_offsetOf]; rfl
  case ecode =>
    intro i hi
    rw [statusWord_getLsbD]
    interval_cases i <;> simp
  case reserved =>
    intro i hi
    rw [statusWord_getLsbD]
    rcases hi with rfl | rfl | hi
    · simp
    · simp
    · obtain ⟨k, rfl⟩ := Nat.exists_eq_add_of_le' hi
      simp
  all_goals exact statusWord_getLsbD s _

/-- Settles O34: F_OUT becomes `fieldsWord` of IDX_IN, whose bits are known. -/
theorem getresShowsTheFields : Obligations.GetresShowsTheFields := by
  intro s
  refine ⟨_, execGetres_eq s, rfl, ?z, ?mode, ?extra, ?hdr, ?top, ?reserved⟩
  all_goals simp only [complete_fOut, setFields_fOut, fieldsWord_getLsbD]
  case z => intro i hi; simp [hi]
  case mode => intro i hi; interval_cases i <;> rfl
  case extra => intro i hi; interval_cases i <;> rfl
  case hdr => rfl
  case top => rfl
  case reserved =>
    rintro i (⟨h5, h7⟩ | rfl | rfl | rfl | h18)
    · interval_cases i <;> rfl
    · rfl
    · rfl
    · rfl
    · obtain ⟨k, rfl⟩ := Nat.exists_eq_add_of_le' h18
      simp

end Sys2Proof.Machine
end

section
/-! PROOFS. What one access does: a CMD write executes its word (10_state.md R30, 30_encoding.md R85,
R86), and nothing else that a host does moves the iterator (10_state.md R41). -/

namespace Sys2Proof.Machine

theorem finishCommand_of_exec {i : Instr} {s u : State} (hdec : decode s.cmd = .ok i)
    (h : exec i s = .next u) : finishCommand s = .next (respond writeDone u) := by
  simp [finishCommand, runCommand_of_decode hdec, h]

theorem finishCommand_of_illegal {e : DecodeError} {s : State} (hdec : decode s.cmd = .error e) :
    finishCommand s = .next (respond writeDone (raise .illegalCommand s)) := by
  simp [finishCommand, runCommand_of_illegal hdec]

/-- Settles O7: a CMD write finishes the command of the state with CMD stored, and no command writes
CMD. -/
theorem commandWriteStoresAndExecutes : Obligations.CommandWriteStoresAndExecutes := by
  intro s w
  have haccess : access (.write 0x00#8 w) s = finishCommand { s with cmd := w } := access_write_cmd w s
  refine ⟨?answers, ?legal, ?illegal⟩
  case answers =>
    cases hdec : decode w with
    | ok i =>
      obtain ⟨u, hu⟩ := exec_answers_next i { s with cmd := w }
      exact ⟨_, haccess.trans (finishCommand_of_exec hdec hu), exec_cmd hu, rfl, rfl⟩
    | error e => exact ⟨_, haccess.trans (finishCommand_of_illegal hdec), rfl, rfl, rfl⟩
  case legal =>
    intro i hdec u hu
    exact haccess.trans (finishCommand_of_exec hdec hu)
  case illegal =>
    intro e hdec
    exact haccess.trans (finishCommand_of_illegal hdec)

theorem windowStore_iterator (a : Offset) (v : Word) (s : State) :
    (windowStore a v s).chBase = s.chBase ∧ (windowStore a v s).chK = s.chK
      ∧ (windowStore a v s).chN = s.chN ∧ (windowStore a v s).cha = s.cha := by
  rw [windowStore_frame]
  exact ⟨rfl, rfl, rfl, rfl⟩

/-- Settles O45: an error report and the writes of the other eight commands leave the iterator, and an
access that starts no command is a read or a store to the window. -/
theorem onlyTwoCommandsMoveTheIterator : Obligations.OnlyTwoCommandsMoveTheIterator := by
  refine ⟨fun i s t hnext hchildren h => ?command, fun a s t ha h => ?access⟩
  case command =>
    rcases exec_next_cases h with ⟨e, rfl⟩ | ⟨-, rfl⟩
    · simp
    · exact commandWrites_iterator s hnext hchildren
  case access =>
    rw [access_of_not_startsCommand s (startsCommand_eq_false ha)] at h
    cases a with
    | read o => cases h; simp
    | write o v => cases h; exact windowStore_iterator o v s

end Sys2Proof.Machine
end

section
/-! PROOFS. The child base of CHILDREN (41_hierarchy.md R143): its resolution is the one asked for, its
child bits are clear, and the number of children is a power of 4. -/

namespace Sys2Proof.Machine

theorem resOf_eq_of_resField_bits {v w : Index} (h : ∀ i, i < 5 → v.getLsbD (52 + i) = w.getLsbD (52 + i)) :
    resOf v = resOf w := by
  have hfield : resField v = resField w := by
    apply BitVec.eq_of_getLsbD_eq
    intro i hi
    simpa [resField, hi] using h i hi
  rw [resOf, resOf, hfield]

/-- The resolution field is replaced and every other bit kept (R140, R143). -/
theorem withRes_getLsbD {z : Nat} (v : Index) (i : Nat) (hz : z < 32) :
    (withRes v z).getLsbD i = if 52 ≤ i ∧ i < 57 then z.testBit (i - 52) else v.getLsbD i := by
  have hhigh : 5 ≤ i - 52 → z.testBit (i - 52) = false := fun h =>
    Nat.testBit_lt_two_pow (lt_of_lt_of_le hz (Nat.pow_le_pow_right (by decide) h : 2 ^ 5 ≤ 2 ^ (i - 52)))
  have hmask : (0x1F#64).getLsbD (i - 52) = decide (i - 52 < 5) := by
    by_cases hi : i - 52 < 5
    · interval_cases i - 52 <;> rfl
    · have h31 : (0x1F#64) = BitVec.ofNat 64 (2 ^ 5 - 1) := rfl
      rw [h31, BitVec.getLsbD_ofNat, Nat.testBit_two_pow_sub_one]
      simp [hi]
  by_cases h64 : i < 64
  · simp only [withRes, resBits, BitVec.getLsbD_or, BitVec.getLsbD_and, BitVec.getLsbD_not,
      BitVec.getLsbD_shiftLeft, BitVec.getLsbD_ofNat, hmask, h64, decide_true, Bool.true_and]
    by_cases h52 : i < 52
    · simp [h52, show ¬ 52 ≤ i by omega]
    · by_cases h57 : i < 57
      · simp [h52, h57, show 52 ≤ i by omega, show i - 52 < 5 by omega, show i - 52 < 64 by omega]
      · simp [h52, h57, hhigh (by omega), show ¬ i - 52 < 5 by omega]
  · simp [BitVec.getLsbD_of_ge _ _ (Nat.le_of_not_lt h64), show ¬ i < 57 by omega]

theorem resOf_withRes {z : Nat} (v : Index) (hz : z < 32) : resOf (withRes v z) = z := by
  have hfield : resField (withRes v z) = BitVec.ofNat 5 z := by
    apply BitVec.eq_of_getLsbD_eq
    intro i hi
    simp only [resField, BitVec.getLsbD_extractLsb', withRes_getLsbD v _ hz, BitVec.getLsbD_ofNat]
    simp [hi, show 52 + i < 57 by omega]
  rw [resOf, hfield, BitVec.toNat_ofNat]
  omega

theorem childCount_toNat {d : Nat} (hd : d < 32) : (childCount d).toNat = 4 ^ d := by
  have hlt : 4 ^ d < 2 ^ 64 := by
    calc 4 ^ d
      _ = 2 ^ (2 * d) := by rw [Nat.pow_mul]
      _ < 2 ^ 64 := Nat.pow_lt_pow_right (by decide) (by omega)
  rw [childCount, BitVec.toNat_shiftLeft, Nat.shiftLeft_eq, Nat.pow_mul]
  simpa using Nat.mod_eq_of_lt hlt

/-- `childCount d - 1` selects the `2 * d` bits of a child number. -/
theorem childCount_sub_one_getLsbD {d : Nat} (hd : d < 32) (i : Nat) :
    (childCount d - 1#64).getLsbD i = decide (i < 2 * d) := by
  have hmask : childCount d - 1#64 = BitVec.ofNat 64 (2 ^ (2 * d) - 1) := by
    have hpos : 1 ≤ 4 ^ d := Nat.one_le_pow _ _ (by decide)
    apply BitVec.eq_of_toNat_eq
    rw [BitVec.toNat_sub_of_le (by simpa [BitVec.le_def, childCount_toNat hd] using hpos), childCount_toNat hd,
      BitVec.toNat_ofNat, Nat.pow_mul]
    have hlt : 4 ^ d < 2 ^ 64 := childCount_toNat hd ▸ (childCount d).isLt
    exact (Nat.mod_eq_of_lt (by omega)).symm
  rw [hmask, BitVec.getLsbD_ofNat, Nat.testBit_two_pow_sub_one]
  by_cases hi : i < 2 * d
  · simp [hi, show i < 64 by omega]
  · simp [hi]

/-- The bits a child number takes are cleared, the others are those of the operand with the new
resolution (R143). -/
theorem childBase_getLsbD {c : Nat} (v : Index) (i : Nat) (hc : c ≤ Config.maxRes) (hi : i < 64) :
    (childBase v c).getLsbD i =
      ((withRes v c).getLsbD i
        && !decide (childShift c ≤ i ∧ i < childShift c + 2 * (c - resOf v))) := by
  have hd : c - resOf v < 32 := by simp only [Config.maxRes] at hc; omega
  simp only [childBase, BitVec.getLsbD_and, BitVec.getLsbD_not, BitVec.getLsbD_shiftLeft,
    childCount_sub_one_getLsbD hd, hi, decide_true, Bool.true_and]
  congr 2
  rw [← decide_not, ← Bool.decide_and, decide_eq_decide]
  omega

/-- The child bits lie below the resolution field. -/
theorem childShift_add_le {c r : Nat} (hc : c ≤ Config.maxRes) : childShift c + 2 * (c - r) ≤ 52 := by
  simp only [childShift, Config.maxRes] at *
  omega

theorem resOf_childBase {c : Nat} (v : Index) (hc : c ≤ Config.maxRes) : resOf (childBase v c) = c := by
  have hshift := childShift_add_le (r := resOf v) hc
  have hc32 : c < 32 := by simp only [Config.maxRes] at hc; omega
  calc resOf (childBase v c)
    _ = resOf (withRes v c) := by
      refine resOf_eq_of_resField_bits fun i hi => ?_
      have habove : ¬ 52 + i < childShift c + 2 * (c - resOf v) := by omega
      rw [childBase_getLsbD v _ hc (by omega)]
      simp [habove]
    _ = c := resOf_withRes v hc32

theorem childBase_child_bits_clear {c i : Nat} (v : Index) (hc : c ≤ Config.maxRes)
    (hlo : childShift c ≤ i) (hhi : i < childShift c + 2 * (c - resOf v)) :
    (childBase v c).getLsbD i = false := by
  have hshift := childShift_add_le (r := resOf v) hc
  rw [childBase_getLsbD v i hc (by omega)]
  simp [hlo, hhi]

end Sys2Proof.Machine
end

section
/-! PROOFS. The invariant (10_state.md R29, R31, R37, R41, 20_memory.md R62). Its register half is kept
by every write to the registers and blind to the port; its port half is read off the last thing the
port did. -/

namespace Sys2Proof.Machine

/-! ## The register half -/

/-- The part of the invariant that speaks of registers and flags. -/
def RegsOk (s : State) : Prop := StatusOk s ∧ FieldsOk s ∧ IteratorOk s

theorem inv_iff (s : State) : Inv s ↔ RegsOk s ∧ PortOk s := by
  simp only [Inv, RegsOk, and_assoc]

@[simp] theorem regsOk_setRes (v : Index) (s : State) : RegsOk (setRes v s) ↔ RegsOk s := Iff.rfl
@[simp] theorem regsOk_setTile (x y : Word) (s : State) : RegsOk (setTile x y s) ↔ RegsOk s := Iff.rfl
@[simp] theorem regsOk_respond (r : Response) (s : State) : RegsOk (respond r s) ↔ RegsOk s := Iff.rfl
@[simp] theorem regsOk_waitCycles (n : Nat) (s : State) : RegsOk (waitCycles n s) ↔ RegsOk s := Iff.rfl
@[simp] theorem regsOk_endResponse (s : State) : RegsOk (endResponse s) ↔ RegsOk s := Iff.rfl
@[simp] theorem regsOk_leaveReset (s : State) : RegsOk (leaveReset s) ↔ RegsOk s := Iff.rfl
@[simp] theorem regsOk_nextCycle (s : State) : RegsOk (nextCycle s) ↔ RegsOk s := Iff.rfl

theorem windowStore_keeps_regsOk {s : State} (a : Offset) (v : Word) (h : RegsOk s) :
    RegsOk (windowStore a v s) := by
  rw [windowStore_frame]
  exact h

theorem raise_keeps_regsOk {s : State} (e : CmdError) (h : RegsOk s) : RegsOk (raise e s) := by
  obtain ⟨⟨-, -, hflags⟩, hfields, hiter⟩ := h
  exact ⟨⟨errorCode_le_four e, by simp, hflags⟩, hfields, hiter⟩

theorem complete_keeps_regsOk {s : State} (h : RegsOk s) : RegsOk (complete s) := by
  obtain ⟨⟨-, -, hflags⟩, hfields, hiter⟩ := h
  exact ⟨⟨by simp, by simp, hflags⟩, hfields, hiter⟩

/-- The tag fields of an index touch no reserved bit of F_OUT (R29, 40_codec.md R113). -/
theorem fieldsWord_reserved (v : Index) : fieldsWord v &&& fOutReserved = 0#32 := by
  apply BitVec.eq_of_getLsbD_eq
  intro i hi
  rw [BitVec.getLsbD_and, fieldsWord_getLsbD]
  interval_cases i <;> simp [fOutReserved]

theorem setFields_keeps_regsOk {s : State} (v : Index) (h : RegsOk s) : RegsOk (setFields v s) := by
  obtain ⟨hstatus, -, hiter⟩ := h
  exact ⟨hstatus, fieldsWord_reserved v, hiter⟩

/-- CAN is inside VC, and VC inside VI (40_codec.md R108). -/
theorem setCheckFlags_keeps_regsOk {s : State} (v : Index) (h : RegsOk s) :
    RegsOk (setCheckFlags v s) := by
  obtain ⟨⟨hcode, herr, -⟩, hfields, hiter⟩ := h
  refine ⟨⟨hcode, herr, fun hcan => ?_, fun hvc => ?_⟩, hfields, hiter⟩
  · simp only [setCheckFlags_can, canonicalCell, Bool.and_eq_true] at hcan
    exact hcan.1
  · simp only [setCheckFlags_vc, validCell, Bool.and_eq_true] at hvc
    exact hvc.1

/-- CHILDREN arms an iterator that has all its `4 ^ (c - res)` children to come (41_hierarchy.md R143). -/
theorem armIterator_keeps_regsOk {s : State} {c : Nat} (hmax : c ≤ Config.maxRes)
    (hres : resOf s.idxIn < c) (h : RegsOk s) :
    RegsOk (armIterator (childBase s.idxIn c) (childCount (c - resOf s.idxIn)) s) := by
  obtain ⟨hstatus, hfields, -⟩ := h
  have hmax26 : c ≤ 26 := hmax
  have hcount := childCount_toNat (d := c - resOf s.idxIn) (by omega)
  refine ⟨hstatus, hfields, fun _ => ?active, fun hcha => by simp at hcha⟩
  simp only [armIterator_chBase, armIterator_chK, armIterator_chN, resOf_childBase s.idxIn hmax, hcount]
  refine ⟨hmax26, Nat.pow_pos (by decide), c - resOf s.idxIn, by omega, by omega, rfl, ?_⟩
  exact fun i hlo hhi => childBase_child_bits_clear s.idxIn hmax hlo hhi

/-- NEXTCHILD hands out one child: below the count it goes on, at the count it ends (R145). -/
theorem advanceIterator_keeps_regsOk {s : State} (hcha : s.cha = true) (h : RegsOk s) :
    RegsOk (advanceIterator s) := by
  obtain ⟨hstatus, hfields, hactive, -⟩ := h
  obtain ⟨hres, hk, hchildren⟩ := hactive hcha
  refine ⟨hstatus, hfields, ?_⟩
  have hnext : (s.chK + 1#64).toNat = s.chK.toNat + 1 := by
    have := s.chN.isLt
    rw [BitVec.toNat_add]
    exact Nat.mod_eq_of_lt (by simp; omega)
  by_cases hlast : s.chK + 1#64 = s.chN
  · refine ⟨fun hon => ?_, fun _ => hlast⟩
    simp [hlast] at hon
  · have hne : s.chK.toNat + 1 ≠ s.chN.toNat := fun heq => hlast (BitVec.eq_of_toNat_eq (hnext.trans heq))
    refine ⟨fun _ => ⟨hres, ?_, hchildren⟩, fun hoff => ?_⟩
    · rw [advanceIterator_chK, advanceIterator_chN, hnext]
      omega
    · simp [hlast, hcha] at hoff

theorem commandWrites_keeps_regsOk {i : Instr} {s : State} (hguard : CommandAccepts i s)
    (h : RegsOk s) : RegsOk (commandWrites i s) := by
  cases i with
  | nop => exact h
  | pack z => exact (regsOk_setRes ..).mpr h
  | unpack => exact setFields_keeps_regsOk _ ((regsOk_setTile ..).mpr h)
  | check => exact setFields_keeps_regsOk _ (setCheckFlags_keeps_regsOk _ h)
  | getres => exact setFields_keeps_regsOk _ h
  | parent p => exact (regsOk_setRes ..).mpr h
  | children c =>
    obtain ⟨hmax, hres⟩ := hguard
    exact armIterator_keeps_regsOk hmax hres h
  | nextchild => exact advanceIterator_keeps_regsOk hguard ((regsOk_setRes ..).mpr h)
  | menc => exact (regsOk_setRes ..).mpr h
  | mdec => exact (regsOk_setTile ..).mpr h

theorem exec_keeps_regsOk {i : Instr} {s t : State} (hexec : exec i s = .next t) (h : RegsOk s) :
    RegsOk t := by
  rcases exec_next_cases hexec with ⟨e, rfl⟩ | ⟨hguard, rfl⟩
  · exact raise_keeps_regsOk e h
  · exact complete_keeps_regsOk (commandWrites_keeps_regsOk hguard h)

/-- The word in CMD raises IllegalCommand or executes a command. -/
theorem runCommand_next {s t : State} (h : runCommand s = .next t) :
    t = raise .illegalCommand s ∨ ∃ i, exec i s = .next t := by
  cases hdec : decode s.cmd with
  | ok i =>
    rw [runCommand_of_decode hdec] at h
    exact .inr ⟨i, h⟩
  | error e =>
    rw [runCommand_of_illegal hdec] at h
    cases h
    exact .inl rfl

theorem runCommand_keeps_regsOk {s t : State} (hrun : runCommand s = .next t) (h : RegsOk s) :
    RegsOk t := by
  rcases runCommand_next hrun with rfl | ⟨i, hexec⟩
  · exact raise_keeps_regsOk _ h
  · exact exec_keeps_regsOk hexec h

theorem runCommand_inReset {s t : State} (hrun : runCommand s = .next t) : t.inReset = s.inReset := by
  rcases runCommand_next hrun with rfl | ⟨i, hexec⟩
  · rfl
  · exact (exec_port_frame hexec).1

/-! ## The port half -/

/-- A refused access answers 0 (20_memory.md R76). -/
def ResponseOk (r : Response) : Prop := r.err = true → r.rdata = 0#32

theorem responseOk_readResponse (a : Offset) (s : State) : ResponseOk (readResponse a s) := by
  unfold readResponse
  split <;> simp [ResponseOk, busError]

theorem responseOk_writeResponse (a : Offset) : ResponseOk (writeResponse a) := by
  unfold writeResponse
  split <;> simp [ResponseOk, busError, writeDone]

theorem portOk_respond {s : State} {r : Response} (hawake : s.inReset = false) (hr : ResponseOk r) :
    PortOk (respond r s) := by
  refine ⟨Nat.succ_pos _, fun hbusy => absurd rfl hbusy, fun hreset => ?_, fun q hq => ?_⟩
  · simp [hawake] at hreset
  · cases hq
    exact hr

theorem portOk_of_silent {s : State} (hawake : s.inReset = false) (hbusy : s.busy < Config.cmdLatency)
    (hrsp : s.rsp = none) : PortOk s :=
  ⟨hbusy, fun _ => hrsp, fun hreset => by simp [hawake] at hreset, fun r hr => by simp [hrsp] at hr⟩

/-! ## What a cycle keeps -/

theorem inv_respond {s : State} {r : Response} (hawake : s.inReset = false) (hregs : RegsOk s)
    (hr : ResponseOk r) : Inv (respond r s) :=
  (inv_iff _).mpr ⟨hregs, portOk_respond hawake hr⟩

/-- In reset every register has its reset value (R230), and these meet the invariant (R41). -/
theorem inv_holdInReset (s : State) : Inv (holdInReset s) := by
  refine ⟨?status, ?fields, ?iterator, ?port⟩
  case status => simp [StatusOk]
  case fields => simp [FieldsOk]
  case iterator => simp [IteratorOk]
  case port => exact ⟨Nat.succ_pos _, fun _ => rfl, fun _ => rfl, fun r hr => by simp at hr⟩

theorem finishCommand_inv {s t : State} (hawake : s.inReset = false) (hregs : RegsOk s)
    (h : finishCommand s = .next t) : Inv t := by
  obtain ⟨u, hrun, rfl⟩ := finishCommand_next h
  exact inv_respond ((runCommand_inReset hrun).trans hawake) (runCommand_keeps_regsOk hrun hregs)
    (by simp [ResponseOk, writeDone])

theorem commandCycle_inv {n : Nat} {s t : State} (hn : n < Config.cmdLatency) (hawake : s.inReset = false)
    (hregs : RegsOk s) (h : commandCycle n s = .next t) : Inv t := by
  rcases commandCycle_next h with ⟨-, hfinish⟩ | ⟨m, rfl, rfl⟩
  · exact finishCommand_inv hawake hregs hfinish
  · exact (inv_iff _).mpr ⟨hregs, portOk_of_silent hawake hn rfl⟩

theorem acceptCycle_inv {a : Access} {s t : State} (hawake : s.inReset = false) (hregs : RegsOk s)
    (h : acceptCycle a s = .next t) : Inv t := by
  cases a with
  | read o =>
    cases h
    exact inv_respond hawake hregs (responseOk_readResponse o s)
  | write o v =>
    have hstored : (windowStore o v s).inReset = false := by rw [windowStore_frame]; exact hawake
    have hregs' := windowStore_keeps_regsOk o v hregs
    cases hstart : startsCommand (.write o v) with
    | true =>
      simp only [acceptCycle, hstart, if_true] at h
      exact commandCycle_inv (Nat.lt_succ_self _) hstored hregs' h
    | false =>
      simp only [acceptCycle, hstart, access_of_not_startsCommand s hstart] at h
      cases h
      exact inv_respond hstored hregs' (responseOk_writeResponse o)

/-- Settles O13: by cases on what the cycle did; only a cycle of a command or an accepted access
touches a register, and `commandCycle_inv` and `acceptCycle_inv` say what it leaves. -/
theorem everyStepKeepsInvariant : Obligations.EveryStepKeepsInvariant := by
  intro s t hinv hstep
  obtain ⟨hregs, hlatency, -⟩ := (inv_iff s).mp hinv
  have hregs' : RegsOk (nextCycle s) := (regsOk_nextCycle s).mpr hregs
  rcases step_cases hstep with ⟨-, rfl⟩ | ⟨-, -, rfl⟩ | ⟨-, hawake, hcycle⟩
  · exact inv_holdInReset _
  · exact (inv_iff _).mpr ⟨hregs', portOk_of_silent rfl hlatency rfl⟩
  · have hawake' : (nextCycle s).inReset = false := hawake
    rcases hcycle with ⟨n, hbusy, hcommand⟩ | ⟨-, a, -, haccept⟩ | ⟨-, -, rfl⟩
    · exact commandCycle_inv (by omega) hawake' hregs' hcommand
    · exact acceptCycle_inv hawake' hregs' haccept
    · exact (inv_iff _).mpr ⟨hregs', portOk_of_silent hawake hlatency rfl⟩

end Sys2Proof.Machine
end

section
/-! PROOFS. One whole access on the state (20_memory.md R66 to R70, R76): which offsets store nothing,
that a store done twice is a store done once, and how an access is answered. -/

namespace Sys2Proof.Machine

/-! ## Stores to the window -/

theorem windowStore_of_no_register {a : Offset} (h : regAt a = none) (v : Word) (s : State) :
    windowStore a v s = s := by
  simp [windowStore, h]

theorem writeStatus_respond (v : Word) (p : Response) (s : State) :
    writeStatus v (respond p s) = respond p (writeStatus v s) := by
  unfold writeStatus
  split <;> rfl

theorem writeStatus_writeStatus (v : Word) (s : State) :
    writeStatus v (writeStatus v s) = writeStatus v s := by
  cases hclear : v.getLsbD 5 with
  | true => simp only [writeStatus, hclear, if_true]
  | false => simp only [writeStatus, hclear, Bool.false_eq_true, if_false]

theorem writeReg_respond (r : WinReg) (v : Word) (p : Response) (s : State) :
    writeReg r v (respond p s) = respond p (writeReg r v s) := by
  cases r with
  | status => exact writeStatus_respond v p s
  | _ => rfl

/-- Storing one half of IDX_IN again finds the other half as the first store left it. -/
theorem writeReg_writeReg (r : WinReg) (v : Word) (s : State) :
    writeReg r v (writeReg r v s) = writeReg r v s := by
  cases r with
  | status => exact writeStatus_writeStatus v s
  | idxInLo => simp [writeReg, setLoWord]
  | idxInHi => simp [writeReg, setHiWord]
  | _ => rfl

theorem windowStore_respond (a : Offset) (v : Word) (p : Response) (s : State) :
    windowStore a v (respond p s) = respond p (windowStore a v s) := by
  cases hreg : regAt a with
  | none => simp [windowStore_of_no_register hreg]
  | some r =>
    obtain rfl := offsetOf_of_regAt hreg
    simp [writeReg_respond]

theorem windowStore_windowStore (a : Offset) (v : Word) (s : State) :
    windowStore a v (windowStore a v s) = windowStore a v s := by
  cases hreg : regAt a with
  | none => simp [windowStore_of_no_register hreg]
  | some r =>
    obtain rfl := offsetOf_of_regAt hreg
    simp [writeReg_writeReg]

/-! ## Accesses that start no command -/

theorem access_write_of_not_startsCommand {a : Offset} {v : Word}
    (h : startsCommand (.write a v) = false) (s : State) :
    access (.write a v) s = .next (respond (writeResponse a) (windowStore a v s)) :=
  access_of_not_startsCommand s h

theorem access_answers_of_not_startsCommand {a : Access} (h : startsCommand a = false) (s : State) :
    ∃ r u, access a s = .next (respond r u) := by
  cases a with
  | read o => exact ⟨_, _, access_read o s⟩
  | write o v => exact ⟨_, _, access_write_of_not_startsCommand h s⟩

/-- Settles O21: a read reads the same after its own response, and a store done twice is done once. -/
theorem nonCommandAccessIsIdempotent : Obligations.NonCommandAccessIsIdempotent := by
  intro s t a hcmd h
  cases a with
  | read o =>
    cases h
    rw [access_read, readResponse_respond]
    rfl
  | write o v =>
    have hstart := startsCommand_eq_false hcmd
    rw [access_write_of_not_startsCommand hstart] at h ⊢
    cases h
    rw [windowStore_respond, windowStore_windowStore]
    rfl

theorem startsCommand_of_no_register {a : Offset} (h : regAt a = none) (v : Word) :
    startsCommand (.write a v) = false := by
  refine startsCommand_eq_false fun w hw => ?_
  obtain ⟨rfl, -⟩ := Access.write.inj hw
  simp at h

/-- A write where the map has no register is answered and stores nothing (R67, R69). -/
theorem access_write_of_no_register {a : Offset} (h : regAt a = none) (v : Word) (s : State) :
    access (.write a v) s = .next (respond (writeResponse a) s) := by
  rw [access_write_of_not_startsCommand (startsCommand_of_no_register h v), windowStore_of_no_register h]

/-! ## Aligned and misaligned accesses -/

theorem finishCommand_answers (s : State) : ∃ u, finishCommand s = .next (respond writeDone u) := by
  cases hdec : decode s.cmd with
  | ok i =>
    obtain ⟨u, hu⟩ := exec_answers_next i s
    exact ⟨u, finishCommand_of_exec hdec hu⟩
  | error e => exact ⟨_, finishCommand_of_illegal hdec⟩

/-- An aligned write is answered without a bus error, a CMD write among them, whatever its word (R76,
60_exceptions.md R203). -/
theorem access_write_of_aligned {a : Offset} (h : misaligned a = false) (v : Word) (s : State) :
    ∃ u, access (.write a v) s = .next (respond writeDone u) := by
  cases hstart : startsCommand (.write a v) with
  | true =>
    obtain ⟨u, hu⟩ := finishCommand_answers (windowStore a v s)
    exact ⟨u, by simpa [access, hstart] using hu⟩
  | false => exact ⟨_, by simpa [writeResponse, h] using access_write_of_not_startsCommand hstart s⟩

/-- Settles O15: misalignment is tested before anything is stored or read, and no other test refuses. -/
theorem misalignedAccessRefused : Obligations.MisalignedAccessRefused := by
  refine ⟨fun s a v hbits => ?refused, fun s a v h0 h1 => ?answered⟩
  case refused =>
    have hmis : misaligned a = true := (misaligned_iff a).mpr hbits
    refine ⟨?_, ?_⟩
    · rw [access_read, readResponse, if_pos hmis]
      rfl
    · rw [access_write_of_no_register (regAt_of_misaligned hmis), writeResponse, if_pos hmis]
      rfl
  case answered =>
    have halign : misaligned a = false := by
      rw [Bool.eq_false_iff, Ne, misaligned_iff, h0, h1]
      decide
    obtain ⟨u, hu⟩ := access_write_of_aligned halign v s
    refine ⟨⟨_, _, access_read a s, rfl, ?_⟩, ⟨_, _, hu, rfl, rfl⟩⟩
    simp [readResponse, halign]

/-! ## Reserved and read-only offsets -/

/-- The aligned offsets with no register in the map (R64). -/
def ReservedOffset (a : Offset) : Prop := a = 0x0C#8 ∨ a = 0x34#8 ∨ (0x50 ≤ a.toNat ∧ a.toNat % 4 = 0)

theorem ReservedOffset.aligned {a : Offset} (h : ReservedOffset a) : misaligned a = false := by
  rcases h with rfl | rfl | ⟨-, hmod⟩
  · rfl
  · rfl
  · exact misaligned_of_mod_four hmod

theorem offsetOf_lt (r : WinReg) : (offsetOf r).toNat < 0x50 := by cases r <;> decide

theorem ReservedOffset.no_register {a : Offset} (h : ReservedOffset a) : regAt a = none := by
  rcases h with rfl | rfl | ⟨hhigh, -⟩
  · rfl
  · rfl
  · refine Option.eq_none_iff_forall_ne_some.mpr fun r hr => ?_
    have hlow := offsetOf_lt r
    rw [← offsetOf_of_regAt hr] at hlow
    omega

/-- The registers no host write changes (R64, R69). -/
def readOnlyRegs : List WinReg :=
  [.id, .resLo, .resHi, .xOut, .yOut, .fOut, .chbLo, .chbHi, .chkLo, .chkHi, .chnLo, .chnHi]

theorem writeReg_of_readOnly {r : WinReg} (h : r ∈ readOnlyRegs) (v : Word) (s : State) :
    writeReg r v s = s := by
  cases r with
  | cmd | status | idxInLo | idxInHi | xIn | yIn => simp [readOnlyRegs] at h
  | _ => rfl

theorem access_write_reserved {a : Offset} (h : ReservedOffset a) (v : Word) (s : State) :
    access (.write a v) s = .next (respond writeDone s) := by
  rw [access_write_of_no_register h.no_register, writeResponse, h.aligned]
  rfl

theorem access_write_readOnly {r : WinReg} (h : r ∈ readOnlyRegs) (v : Word) (s : State) :
    access (.write (offsetOf r) v) s = .next (respond writeDone s) := by
  have hcmd : r ≠ .cmd := by rintro rfl; simp [readOnlyRegs] at h
  rw [access_write_offsetOf hcmd, writeReg_of_readOnly h]

/-- Settles O16: a reserved offset has no register to read or to store to, and a read-only register
ignores the store. -/
theorem reservedAndReadOnlyOffsets : Obligations.ReservedAndReadOnlyOffsets := by
  refine ⟨fun s a ha => ?read, fun s a v ha => ?write⟩
  case read =>
    have ha : ReservedOffset a := ha
    rw [access_read, readResponse, ha.aligned, windowValue, ha.no_register]
    rfl
  case write =>
    rcases ha with h | h | h | hmem
    · exact access_write_reserved (.inl h) v s
    · exact access_write_reserved (.inr (.inl h)) v s
    · exact access_write_reserved (.inr (.inr h)) v s
    · obtain ⟨r, hr, rfl⟩ := List.mem_map.mp (show a ∈ readOnlyRegs.map offsetOf from hmem)
      exact access_write_readOnly hr v s

end Sys2Proof.Machine
end

section
/-! PROOFS. The port over several cycles (20_memory.md R61, R62, R71, R245): a CMD write goes through
its waiting cycles to the state of the atomic access, and any other access is answered in one. -/

namespace Sys2Proof.Machine

/-! ## Pins taken off the host's list -/

theorem nextCycle_skipPins (n : Nat) (s : State) : nextCycle (skipPins n s) = skipPins (n + 1) s := by
  simp [nextCycle, skipPins]

theorem nextCycle_eq_skipPins (s : State) : nextCycle s = skipPins 1 s := nextCycle_skipPins 0 s

theorem pinsNow_skipPins (n : Nat) (s : State) : pinsNow (skipPins n s) = s.hostIn.getD n idlePins := by
  simp [pinsNow, skipPins, List.headD_eq_head?_getD, List.head?_drop]

/-! ## One cycle of a block out of reset -/

theorem step_of_presented {s : State} {a : Access} (hawake : Awake s) (hidle : s.busy = 0)
    (hpins : presented (pinsNow s) = some a) : step s = acceptCycle a (nextCycle s) := by
  obtain ⟨hrst, hreset⟩ := hawake
  simp [step, clockCycle, hrst, hreset, hidle, hpins]

theorem step_of_nothing_presented {s : State} (hawake : Awake s) (hidle : s.busy = 0)
    (hpins : presented (pinsNow s) = none) : step s = .next (endResponse (nextCycle s)) := by
  obtain ⟨hrst, hreset⟩ := hawake
  simp [step, clockCycle, hrst, hreset, hidle, hpins]

theorem acceptCycle_of_not_startsCommand {a : Access} (h : startsCommand a = false) (s : State) :
    acceptCycle a s = access a s := by
  cases a with
  | read o => rfl
  | write o v => simp [acceptCycle, h]

theorem acceptCycle_write_cmd (w : Word) (s : State) :
    acceptCycle (.write (offsetOf .cmd) w) s = commandCycle Config.cmdLatencyPred { s with cmd := w } := by
  have hstart : startsCommand (.write (offsetOf .cmd) w) = true := rfl
  simp [acceptCycle, hstart, writeReg]

theorem reqReady_of_busy {s : State} (h : s.busy ≠ 0) : reqReady s = false := by
  simp [reqReady, h]

theorem portResponse_of_silent {s : State} (h : s.rsp = none) : portResponse s = none := by
  simp [portResponse, h]

/-- Settles O9: the accepted access is the atomic one, which answers. -/
theorem otherAccessAnsweredNextCycle : Obligations.OtherAccessAnsweredNextCycle := by
  intro s a hawake hidle hpins hcmd
  have hstart := startsCommand_eq_false hcmd
  have hstep : step s = access a (nextCycle s) :=
    (step_of_presented hawake hidle hpins).trans (acceptCycle_of_not_startsCommand hstart _)
  obtain ⟨r, u, hu⟩ := access_answers_of_not_startsCommand hstart (nextCycle s)
  exact ⟨hstep, _, _, hstep.trans hu, rfl, rfl⟩

/-- Settles O10: a command with a cycle to come waits, and a block with nothing to do ends its
response. -/
theorem waitingAndIdleCyclesChangeNothing : Obligations.WaitingAndIdleCyclesChangeNothing := by
  refine ⟨fun s n hawake hbusy => ⟨?ready, ?waits⟩, fun s hawake hidle hvalid => ?idle⟩
  case ready => exact reqReady_of_busy (by omega)
  case waits => exact step_of_busy hawake hbusy
  case idle => exact step_of_nothing_presented hawake hidle (by simp [presented, hvalid])

/-! ## All cycles of a CMD write -/

theorem stepRepeat_succ_last {n : Nat} {s t : State} (h : stepRepeat n s = .next t) :
    stepRepeat (n + 1) s = step t := by
  induction n generalizing s with
  | zero =>
    cases h
    exact stepRepeat_one _
  | succ n ih =>
    cases hstep : step s with
    | next u =>
      rw [stepRepeat_succ _ hstep] at h ⊢
      exact ih h
    | fault f => simp [stepRepeat, hstep] at h
    | refused r => simp [stepRepeat, hstep] at h

/-- The block `k` cycles after it accepted a write of `w` to CMD, while the command is not over: the word
is stored and nothing else has moved but the port (R62, assumption 3). -/
def commandWaiting (w : Word) (k : Nat) (s : State) : State :=
  waitCycles (Config.cmdLatency - k) (skipPins k { s with cmd := w })

theorem step_commandWaiting {s : State} {w : Word} {k n : Nat} (hreset : s.inReset = false)
    (hrst : (s.hostIn.getD k idlePins).rstN = true) (hn : Config.cmdLatency - k = n + 1) :
    step (commandWaiting w k s) = commandCycle n (waitCycles (n + 1) (skipPins (k + 1) { s with cmd := w })) := by
  have hpins : pinsNow (commandWaiting w k s) = s.hostIn.getD k idlePins :=
    pinsNow_skipPins k { s with cmd := w }
  have hawake : Awake (commandWaiting w k s) := ⟨by rw [hpins, hrst], hreset⟩
  rw [step_of_busy hawake hn, ← nextCycle_skipPins, ← hn]
  rfl

section CommandPresented

variable {s : State} {w : Word} (hawake : Awake s) (hidle : s.busy = 0)
  (hpins : presented (pinsNow s) = some (.write (offsetOf .cmd) w))
  (hrst : ∀ k, k < Config.cmdLatency → (s.hostIn.getD k idlePins).rstN = true)

include hawake hidle hpins

theorem step_accepts_command :
    step s = commandCycle Config.cmdLatencyPred (skipPins 1 { s with cmd := w }) := by
  rw [step_of_presented hawake hidle hpins, acceptCycle_write_cmd, nextCycle_eq_skipPins]
  rfl

include hrst

/-- The cycles of a CMD write before its last (R62), one at a time. -/
theorem stepRepeat_commandWaiting {k : Nat} (hk : k + 1 < Config.cmdLatency) :
    stepRepeat (k + 1) s = .next (commandWaiting w (k + 1) s) := by
  induction k with
  | zero =>
    obtain ⟨m, hm⟩ : ∃ m, Config.cmdLatencyPred = m + 1 :=
      Nat.exists_eq_succ_of_ne_zero (Nat.lt_of_succ_lt_succ hk).ne'
    have hleft : Config.cmdLatency - (0 + 1) = m + 1 := by simp [Config.cmdLatency, hm]
    rw [stepRepeat_one, step_accepts_command hawake hidle hpins, hm, commandWaiting, hleft]
    rfl
  | succ k ih =>
    obtain ⟨n, hn⟩ : ∃ n, Config.cmdLatency - (k + 1 + 1) = n + 1 :=
      Nat.exists_eq_succ_of_ne_zero (Nat.sub_pos_of_lt hk).ne'
    have hleft : Config.cmdLatency - (k + 1) = n + 1 + 1 := by omega
    rw [stepRepeat_succ_last (ih (by omega)), step_commandWaiting hawake.2 (hrst _ (by omega)) hleft,
      commandWaiting, hn]
    rfl

/-- The last cycle executes the stored word, and its outcome does not depend on what the port held. -/
theorem stepRepeat_cmdLatency :
    stepRepeat Config.cmdLatency s = finishCommand (skipPins Config.cmdLatency { s with cmd := w }) := by
  cases hm : Config.cmdLatencyPred with
  | zero =>
    have hlatency : Config.cmdLatency = 1 := by simp [Config.cmdLatency, hm]
    rw [hlatency, stepRepeat_one, step_accepts_command hawake hidle hpins, hm]
    rfl
  | succ m =>
    have hlatency : Config.cmdLatency = m + 1 + 1 := by simp [Config.cmdLatency, hm]
    have hwaited := stepRepeat_commandWaiting (k := m) hawake hidle hpins hrst (by omega)
    calc stepRepeat Config.cmdLatency s
      _ = step (commandWaiting w (m + 1) s) := by rw [hlatency, stepRepeat_succ_last hwaited]
      _ = finishCommand (waitCycles 1 (skipPins (m + 1 + 1) { s with cmd := w })) :=
        step_commandWaiting (k := m + 1) (n := 0) hawake.2 (hrst _ (by omega)) (by omega)
      _ = finishCommand (skipPins (m + 1 + 1) { s with cmd := w }) := finishCommand_port_irrelevant _ _ _
      _ = _ := by rw [hlatency]

end CommandPresented

/-- Settles O8: after fewer cycles the block is in `commandWaiting`, where the port is silent; the last
one finishes the command as the atomic access does. -/
theorem commandWriteCompletesAfterLatency : Obligations.CommandWriteCompletesAfterLatency := by
  intro s w hawake hidle hpins hrst
  refine ⟨?completes, fun k hpos hk => ?waits⟩
  case completes =>
    rw [stepRepeat_cmdLatency hawake hidle hpins hrst]
    exact (access_write_cmd w (skipPins Config.cmdLatency s)).symm
  case waits =>
    obtain ⟨j, rfl⟩ : ∃ j, k = j + 1 := Nat.exists_eq_succ_of_ne_zero hpos.ne'
    refine ⟨_, stepRepeat_commandWaiting hawake hidle hpins hrst hk, reqReady_of_busy ?_, portResponse_of_silent rfl⟩
    exact (Nat.sub_pos_of_lt hk).ne'

end Sys2Proof.Machine
end

section
/-! PROOFS. The fields of a command word as numbers (30_encoding.md R80 to R82), and that a word whose
reserved fields are 0 is the encoding of its OP and R (R83, R89). -/

namespace Sys2Proof

theorem opField_eq_toNat (w : Word) : opField w = w.toNat % 16 := by
  simp [opField, BitVec.extractLsb'_toNat]

theorem rField_eq_toNat (w : Word) : rField w = w.toNat / 256 % 32 := by
  simp [rField, BitVec.extractLsb'_toNat, Nat.shiftRight_eq_div_pow]

theorem opField_lt (w : Word) : opField w < 16 := (w.extractLsb' 0 4).isLt

theorem rField_lt (w : Word) : rField w < 32 := (w.extractLsb' 8 5).isLt

/-- The reserved fields Z1 and Z0 hold 0 (R83). -/
def ReservedClear (w : Word) : Prop := z1Field w = 0#19 ∧ z0Field w = 0#4

theorem not_reservedClear_iff (w : Word) : ¬ ReservedClear w ↔ z1Field w ≠ 0#19 ∨ z0Field w ≠ 0#4 :=
  not_and_or

theorem reservedClear_iff_toNat (w : Word) :
    ReservedClear w ↔ w.toNat < 2 ^ 13 ∧ w.toNat / 16 % 16 = 0 := by
  have hw := w.isLt
  simp only [ReservedClear, z1Field, z0Field, ← BitVec.toNat_inj, BitVec.extractLsb'_toNat,
    Nat.shiftRight_eq_div_pow, BitVec.toNat_zero]
  omega

theorem enc_toNat {op r : Nat} (hop : op < 16) (hr : r < 32) : (enc op r).toNat = r * 256 + op := by
  have hfields : enc op r = BitVec.ofNat 32 (r <<< 8 ||| op) := by
    apply BitVec.eq_of_toNat_eq
    simp [enc, Nat.shiftLeft_eq]
  rw [hfields, ← Nat.shiftLeft_add_eq_or_of_lt (show op < 2 ^ 8 by omega), Nat.shiftLeft_eq,
    BitVec.toNat_ofNat, Nat.mod_eq_of_lt (by omega)]

theorem opField_enc {op r : Nat} (hop : op < 16) (hr : r < 32) : opField (enc op r) = op := by
  rw [opField_eq_toNat, enc_toNat hop hr]
  omega

theorem rField_enc {op r : Nat} (hop : op < 16) (hr : r < 32) : rField (enc op r) = r := by
  rw [rField_eq_toNat, enc_toNat hop hr]
  omega

theorem reservedClear_enc {op r : Nat} (hop : op < 16) (hr : r < 32) : ReservedClear (enc op r) := by
  rw [reservedClear_iff_toNat, enc_toNat hop hr]
  omega

theorem ReservedClear.enc_fields {w : Word} (h : ReservedClear w) : enc (opField w) (rField w) = w := by
  obtain ⟨hlow, hz0⟩ := (reservedClear_iff_toNat w).mp h
  apply BitVec.eq_of_toNat_eq
  rw [enc_toNat (opField_lt w) (rField_lt w), opField_eq_toNat, rField_eq_toNat]
  omega

theorem ReservedClear.getLsbD {w : Word} (h : ReservedClear w) {i : Nat}
    (hi : (4 ≤ i ∧ i ≤ 7) ∨ (13 ≤ i ∧ i ≤ 31)) : w.getLsbD i = false := by
  obtain ⟨hz1, hz0⟩ := h
  rcases hi with ⟨hlow, hhigh⟩ | ⟨hlow, hhigh⟩
  · have hbit : (z0Field w).getLsbD (i - 4) = false := by rw [hz0, BitVec.getLsbD_zero]
    simpa [z0Field, show i - 4 < 4 by omega, show 4 + (i - 4) = i by omega] using hbit
  · have hbit : (z1Field w).getLsbD (i - 13) = false := by rw [hz1, BitVec.getLsbD_zero]
    simpa [z1Field, show i - 13 < 19 by omega, show 13 + (i - 13) = i by omega] using hbit

end Sys2Proof
end

section
/-! PROOFS. The decoder says which command has the fields of the word (30_encoding.md R84, R85), so it
inverts the encoder (R89). -/

namespace Sys2Proof

/-- The opcodes of R84 whose commands take no R. -/
def noOperandOps : List Nat := [0, 2, 3, 4, 7, 8, 9]

/-- The opcodes of R84 whose commands take R. -/
def operandOps : List Nat := [1, 5, 6]

/-- The opcode map is the inverse of `fieldsOf`, on the fields that the last test of R85 lets pass. -/
theorem commandOf_eq_some_iff (op r : Nat) (i : Instr) :
    (commandOf op r = some i ∧ (opUsesR op = false → r = 0)) ↔ fieldsOf i = (op, r) := by
  constructor
  · rintro ⟨hcommand, hr⟩
    unfold commandOf at hcommand
    split at hcommand <;> cases hcommand <;> simp_all [fieldsOf, opUsesR]
  · intro h
    cases i <;> cases h <;> exact ⟨rfl, by simp [opUsesR]⟩

theorem decode_eq_ok_iff (w : Word) (i : Instr) :
    decode w = .ok i ↔ ReservedClear w ∧ fieldsOf i = (opField w, rField w) := by
  rw [← commandOf_eq_some_iff, decode]
  by_cases hclear : ReservedClear w
  · rw [if_neg (mt (not_reservedClear_iff w).mpr (not_not.mpr hclear))]
    cases commandOf (opField w) (rField w) with
    | none => simp
    | some j =>
      by_cases htaken : opUsesR (opField w) = false ∧ rField w ≠ 0
      · simp [htaken]
      · simpa [hclear, htaken] using fun _ => not_and_not_right.mp htaken
  · rw [if_pos ((not_reservedClear_iff w).mp hclear)]
    simp [hclear]

/-- The fields that some command has, by the two kinds of opcodes. -/
theorem exists_fieldsOf_iff (op r : Nat) :
    (∃ i, fieldsOf i = (op, r)) ↔ op ∈ operandOps ∨ (op ∈ noOperandOps ∧ r = 0) := by
  constructor
  · rintro ⟨i, h⟩
    cases i <;> cases h <;> simp [operandOps, noOperandOps]
  · rintro (hop | ⟨hop, rfl⟩)
    · simp only [operandOps, List.mem_cons, List.not_mem_nil, or_false] at hop
      rcases hop with rfl | rfl | rfl
      exacts [⟨.pack r, rfl⟩, ⟨.parent r, rfl⟩, ⟨.children r, rfl⟩]
    · simp only [noOperandOps, List.mem_cons, List.not_mem_nil, or_false] at hop
      rcases hop with rfl | rfl | rfl | rfl | rfl | rfl | rfl
      exacts [⟨.nop, rfl⟩, ⟨.unpack, rfl⟩, ⟨.check, rfl⟩, ⟨.getres, rfl⟩, ⟨.nextchild, rfl⟩, ⟨.menc, rfl⟩,
        ⟨.mdec, rfl⟩]

theorem fieldsOf_op_lt (i : Instr) : (fieldsOf i).1 < 16 := by cases i <;> simp [fieldsOf]

/-- A command is well formed when its operand fits the R field (R82, R89). -/
theorem wellFormed_iff (i : Instr) : i.WellFormed ↔ (fieldsOf i).2 < 32 := by
  cases i <;> simp [Instr.WellFormed, Instr.wellFormed, fieldsOf, Nat.lt_succ_iff]

theorem decode_encode {i : Instr} (h : i.WellFormed) : decode (encode i) = .ok i := by
  have hr := (wellFormed_iff i).mp h
  have hop := fieldsOf_op_lt i
  refine (decode_eq_ok_iff _ i).mpr ⟨reservedClear_enc hop hr, ?_⟩
  rw [encode, opField_enc hop hr, rField_enc hop hr]

theorem encode_of_decode {w : Word} {i : Instr} (h : decode w = .ok i) : i.WellFormed ∧ encode i = w := by
  obtain ⟨hclear, hfields⟩ := (decode_eq_ok_iff w i).mp h
  refine ⟨(wellFormed_iff i).mpr ?_, ?_⟩
  · rw [hfields]
    exact rField_lt w
  · rw [encode, hfields]
    exact hclear.enc_fields

/-- Settles O1: a legal word is the encoding of its own fields, and an encoding has the fields of its
command. -/
theorem decodesExactlyTheEncodings : Obligations.DecodesExactlyTheEncodings := by
  intro w i
  refine ⟨encode_of_decode, ?_⟩
  rintro ⟨hwf, rfl⟩
  exact decode_encode hwf

/-- Settles O3: the five legal words are encodings of their commands; the tests of R85, run on the other
three, fire at the reason given. -/
theorem sampleWordsDecode : Obligations.SampleWordsDecode :=
  ⟨decode_encode (i := .nop) rfl, decode_encode (i := .pack 4) rfl, decode_encode (i := .unpack) rfl,
    decode_encode (i := .children 31) rfl, decode_encode (i := .mdec) rfl, rfl, rfl, rfl⟩

end Sys2Proof
end

section
/-! PROOFS. Legal and illegal words (30_encoding.md R83, R86, R87) and how many there are (R88). -/

namespace Sys2Proof

theorem decode_error_iff_not_ok (w : Word) : (∃ e, decode w = .error e) ↔ ¬ ∃ i, decode w = .ok i := by
  cases decode w <;> simp

theorem decode_ok_iff_fields (w : Word) :
    (∃ i, decode w = .ok i) ↔
      ReservedClear w ∧ (opField w ∈ operandOps ∨ (opField w ∈ noOperandOps ∧ rField w = 0)) := by
  simp only [decode_eq_ok_iff, exists_and_left, exists_fieldsOf_iff]

/-- The sixteen values of OP, by the rows of R84 (R84, R86). -/
theorem opField_cases (w : Word) :
    (opField w ∈ operandOps ∧ opField w ∉ noOperandOps ∧ opField w < 0xA)
      ∨ (opField w ∈ noOperandOps ∧ opField w ∉ operandOps ∧ opField w < 0xA)
      ∨ (0xA ≤ opField w ∧ opField w ∉ operandOps ∧ opField w ∉ noOperandOps) := by
  have hlt := opField_lt w
  simp only [operandOps, noOperandOps, List.mem_cons, List.not_mem_nil, or_false]
  omega

/-- A word is illegal for one of the three reasons of R83, R86 and R87. -/
theorem decode_error_iff_fields (w : Word) :
    (∃ e, decode w = .error e) ↔
      ¬ ReservedClear w ∨ (ReservedClear w ∧ 0xA ≤ opField w)
        ∨ (ReservedClear w ∧ opField w ∈ noOperandOps ∧ rField w ≠ 0) := by
  rw [decode_error_iff_not_ok, decode_ok_iff_fields]
  rcases opField_cases w with ⟨hop, hno, hlt⟩ | ⟨hno, hop, hlt⟩ | ⟨hge, hop, hno⟩
  · have hnotReserved := hlt.not_ge
    tauto
  · have hnotReserved := hlt.not_ge
    tauto
  · tauto

/-- The words with reserved fields 0 whose OP and R are a pair of `P`. -/
def wordsWithFields (P : Finset (Nat × Nat)) : Set Word :=
  {w | ReservedClear w ∧ (opField w, rField w) ∈ P}

/-- All values of OP and R. -/
def allFields : Finset (Nat × Nat) := Finset.range 16 ×ˢ Finset.range 32

theorem mem_allFields {p : Nat × Nat} : p ∈ allFields ↔ p.1 < 16 ∧ p.2 < 32 := by
  simp [allFields, Finset.mem_product]

theorem fields_mem_allFields (w : Word) : (opField w, rField w) ∈ allFields :=
  mem_allFields.mpr ⟨opField_lt w, rField_lt w⟩

/-- The fields and the word determine one another (R80, R89). -/
theorem enc_bijOn {P : Finset (Nat × Nat)} (hP : P ⊆ allFields) :
    Set.BijOn (fun p : Nat × Nat => enc p.1 p.2) P (wordsWithFields P) := by
  have hleft : Set.LeftInvOn (fun w => (opField w, rField w)) (fun p : Nat × Nat => enc p.1 p.2) P := by
    intro p hp
    obtain ⟨hop, hr⟩ := mem_allFields.mp (hP hp)
    exact Prod.ext (opField_enc hop hr) (rField_enc hop hr)
  refine Set.InvOn.bijOn ⟨hleft, fun w hw => hw.1.enc_fields⟩ (fun p hp => ?_) (fun w hw => hw.2)
  obtain ⟨hop, hr⟩ := mem_allFields.mp (hP hp)
  refine ⟨reservedClear_enc hop hr, ?_⟩
  rw [opField_enc hop hr, rField_enc hop hr]
  exact hp

theorem ncard_wordsWithFields {P : Finset (Nat × Nat)} (hP : P ⊆ allFields) :
    (wordsWithFields P).ncard = P.card := by
  have h := enc_bijOn hP
  rw [← h.image_eq, h.injOn.ncard_image, Set.ncard_coe_finset]

/-- The complement of the words that OP and R give, of which there are `2 ^ 9`. -/
theorem ncard_reserved_set : {w : Word | ¬ ReservedClear w}.ncard = 2 ^ 32 - 2 ^ 9 := by
  have hclear : {w : Word | ReservedClear w}.ncard = 2 ^ 9 := by
    have hset : {w : Word | ReservedClear w} = wordsWithFields allFields :=
      Set.ext fun w => (and_iff_left (fields_mem_allFields w)).symm
    rw [hset, ncard_wordsWithFields subset_rfl, allFields, Finset.card_product, Finset.card_range,
      Finset.card_range]
    rfl
  have hword : Nat.card Word = 2 ^ 32 := by
    rw [Nat.card_congr BitVec.equivFin.toEquiv, Nat.card_fin]
  rw [← hclear, ← hword, ← Set.ncard_compl]
  rfl

theorem ncard_reserved_opcode : {w : Word | ReservedClear w ∧ 0xA ≤ opField w}.ncard = 6 * 32 := by
  have hset : {w : Word | ReservedClear w ∧ 0xA ≤ opField w}
      = wordsWithFields (Finset.Ico 0xA 16 ×ˢ Finset.range 32) := by
    ext w
    simp [wordsWithFields, opField_lt, rField_lt]
  rw [hset, ncard_wordsWithFields (Finset.product_subset_product_left (by decide)), Finset.card_product]
  rfl

theorem ncard_argument_not_taken :
    {w : Word | ReservedClear w ∧ opField w ∈ noOperandOps ∧ rField w ≠ 0}.ncard = 7 * 31 := by
  have hset : {w : Word | ReservedClear w ∧ opField w ∈ noOperandOps ∧ rField w ≠ 0}
      = wordsWithFields (noOperandOps.toFinset ×ˢ Finset.Ico 1 32) := by
    ext w
    simp [wordsWithFields, rField_lt, Nat.one_le_iff_ne_zero]
  rw [hset, ncard_wordsWithFields (Finset.product_subset_product (by decide) (by decide)), Finset.card_product]
  rfl

/-- The fields of the legal words: every R on the three commands that take it, R 0 on the seven others. -/
def legalFields : Finset (Nat × Nat) :=
  operandOps.toFinset ×ˢ Finset.range 32 ∪ noOperandOps.toFinset ×ˢ {0}

theorem mem_legalFields (w : Word) :
    (opField w, rField w) ∈ legalFields ↔
      opField w ∈ operandOps ∨ (opField w ∈ noOperandOps ∧ rField w = 0) := by
  simp only [legalFields, Finset.mem_union, Finset.mem_product, List.mem_toFinset, Finset.mem_range,
    Finset.mem_singleton, rField_lt, and_true]

theorem legalFields_subset : legalFields ⊆ allFields :=
  Finset.union_subset (Finset.product_subset_product_left (by decide))
    (Finset.product_subset_product (by decide) (by decide))

theorem card_legalFields : legalFields.card = 3 * 32 + 7 := by
  have hdisjoint : Disjoint operandOps.toFinset noOperandOps.toFinset := by decide
  rw [legalFields, Finset.card_union_of_disjoint (Finset.disjoint_product.mpr (.inl hdisjoint)),
    Finset.card_product, Finset.card_product]
  rfl

theorem ncard_legal : {w : Word | ∃ i, decode w = .ok i}.ncard = 103 := by
  have hset : {w : Word | ∃ i, decode w = .ok i} = wordsWithFields legalFields :=
    Set.ext fun w => (decode_ok_iff_fields w).trans (and_congr_right' (mem_legalFields w).symm)
  rw [hset, ncard_wordsWithFields legalFields_subset, card_legalFields]

/-- Settles O2: the words with clear reserved fields are counted by the pairs of their OP and R. -/
theorem legalAndIllegalWordCounts : Obligations.LegalAndIllegalWordCounts := by
  refine ⟨?reserved, ?opcode, ?argument, ncard_legal, fun w => ?error⟩
  case reserved => simpa only [not_reservedClear_iff] using ncard_reserved_set
  case opcode => simpa only [ReservedClear, and_assoc] using ncard_reserved_opcode
  case argument => simpa only [ReservedClear, noOperandOps, and_assoc] using ncard_argument_not_taken
  case error =>
    rw [← not_reservedClear_iff]
    simpa only [ReservedClear, noOperandOps, and_assoc] using decode_error_iff_fields w

end Sys2Proof
end

section
/-! PROOFS. The assembler (30_encoding.md R89): it gives the encoding of the well-formed command whose
text it reads. -/

namespace Sys2Proof.Machine

/-- The mnemonic tells the command, and the text holds its operand. -/
theorem assembly_injective : Function.Injective assembly := by
  intro i j h
  cases i <;> cases j <;> simp_all [assembly]

/-- The commands the assembler tries for an operand, one per mnemonic of R89. -/
def candidates (r : Nat) : List Instr :=
  [.nop, .pack r, .unpack, .check, .getres, .parent r, .children r, .nextchild, .menc, .mdec]

theorem mem_candidates_of_assembly {i : Instr} {m : String} {o : Option Nat} (h : assembly i = (m, o)) :
    i ∈ candidates (o.getD 0) := by
  cases i <;> cases h <;> simp [candidates]

/-- The assembler's test of a candidate: it has the text read, and an operand that fits R. -/
def assemblesTo (m : String) (o : Option Nat) (i : Instr) : Bool :=
  decide (assembly i = (m, o)) && i.wellFormed

theorem assemblesTo_iff (m : String) (o : Option Nat) (i : Instr) :
    assemblesTo m o i = true ↔ assembly i = (m, o) ∧ i.WellFormed := by
  simp [assemblesTo]

theorem assemble_eq (m : String) (o : Option Nat) :
    assemble m o = ((candidates (o.getD 0)).find? (assemblesTo m o)).map encode := rfl

theorem assemble_eq_some_iff (m : String) (o : Option Nat) (w : Word) :
    assemble m o = some w ↔ ∃ i : Instr, assembly i = (m, o) ∧ i.WellFormed ∧ encode i = w := by
  rw [assemble_eq, Option.map_eq_some_iff]
  constructor
  · rintro ⟨i, hfind, hw⟩
    obtain ⟨htext, hwf⟩ := (assemblesTo_iff m o i).mp (List.find?_some hfind)
    exact ⟨i, htext, hwf, hw⟩
  · rintro ⟨i, htext, hwf, hw⟩
    have hfound : ((candidates (o.getD 0)).find? (assemblesTo m o)).isSome = true :=
      List.find?_isSome.mpr ⟨i, mem_candidates_of_assembly htext, (assemblesTo_iff m o i).mpr ⟨htext, hwf⟩⟩
    obtain ⟨j, hfind⟩ := Option.isSome_iff_exists.mp hfound
    obtain ⟨htext', -⟩ := (assemblesTo_iff m o j).mp (List.find?_some hfind)
    obtain rfl : j = i := assembly_injective (htext'.trans htext.symm)
    exact ⟨j, hfind, hw⟩

/-- Settles O4: a command is the only one with its text, and no text of a command has an operand after
one of the seven mnemonics. -/
theorem assemblerGivesTheEncoding : Obligations.AssemblerGivesTheEncoding := by
  refine ⟨fun i => ?encodes, fun m hm r => ?refuses⟩
  case encodes =>
    ext w
    simp [assemble_eq_some_iff, assembly_injective.eq_iff]
  case refuses =>
    refine Option.eq_none_iff_forall_ne_some.mpr fun w hw => ?_
    obtain ⟨i, htext, -, -⟩ := (assemble_eq_some_iff _ _ _).mp hw
    cases i <;> cases htext <;> simp at hm

end Sys2Proof.Machine
end

section
/-! PROOFS. The step on an illegal word (60_exceptions.md R203), and that every step has a next state. -/

namespace Sys2Proof.Machine

/-- The classes of R83, R86 and R87 by the bits of the word. -/
theorem decode_error_of_bits {w : Word}
    (h : (∃ i, ((4 ≤ i ∧ i ≤ 7) ∨ (13 ≤ i ∧ i ≤ 31)) ∧ w.getLsbD i = true)
      ∨ 0xA ≤ w.toNat % 16 ∨ (w.toNat % 16 ∉ [1, 5, 6] ∧ w.toNat / 256 % 32 ≠ 0)) :
    ∃ e, decode w = .error e := by
  rw [← opField_eq_toNat, ← rField_eq_toNat] at h
  rw [decode_error_iff_not_ok, decode_ok_iff_fields]
  rintro ⟨hclear, hfields⟩
  rcases h with ⟨i, hi, hbit⟩ | hop | ⟨hop, hr⟩
  · rw [hclear.getLsbD hi] at hbit
    cases hbit
  · simp only [operandOps, noOperandOps, List.mem_cons, List.not_mem_nil, or_false] at hfields
    omega
  · exact hfields.elim hop fun hzero => hr hzero.2

/-- Settles O6: the last cycle finishes the command, and a word that selects none is reported. -/
theorem illegalWordReportsCode2 : Obligations.IllegalWordReportsCode2 := by
  intro s hawake hbusy hbits
  obtain ⟨e, hdec⟩ := decode_error_of_bits hbits
  have hdec' : decode (nextCycle s).cmd = .error e := hdec
  calc step s
    _ = finishCommand (nextCycle s) := step_of_busy hawake hbusy
    _ = .next (respond writeDone (raise .illegalCommand (nextCycle s))) := finishCommand_of_illegal hdec'
    _ = _ := rfl

theorem commandCycle_answers_next (n : Nat) (s : State) : ∃ t, commandCycle n s = .next t := by
  cases n with
  | zero =>
    obtain ⟨u, hu⟩ := finishCommand_answers s
    exact ⟨_, hu⟩
  | succ m => exact ⟨_, rfl⟩

theorem acceptCycle_answers_next (a : Access) (s : State) : ∃ t, acceptCycle a s = .next t := by
  cases hstart : startsCommand a with
  | false =>
    rw [acceptCycle_of_not_startsCommand hstart]
    obtain ⟨r, u, hu⟩ := access_answers_of_not_startsCommand hstart s
    exact ⟨_, hu⟩
  | true =>
    cases a with
    | read o => cases hstart
    | write o v =>
      obtain ⟨t, ht⟩ := commandCycle_answers_next Config.cmdLatencyPred (windowStore o v s)
      exact ⟨t, by simpa [acceptCycle, hstart] using ht⟩

/-- Settles O12: by cases on what the cycle does: reset, the cycle that leaves it, a command in progress,
an access, or nothing. -/
theorem everyStepAnswersNext : Obligations.EveryStepAnswersNext := by
  intro s
  cases hrst : (pinsNow s).rstN with
  | false => exact ⟨_, by rw [step, clockCycle, if_pos hrst]⟩
  | true =>
    cases hreset : s.inReset with
    | true => exact ⟨_, by rw [step, clockCycle, if_neg (by simp [hrst]), if_pos hreset]⟩
    | false =>
      have hawake : Awake s := ⟨hrst, hreset⟩
      cases hbusy : s.busy with
      | succ n =>
        rw [step_of_busy hawake hbusy]
        exact commandCycle_answers_next n _
      | zero =>
        cases hpins : presented (pinsNow s) with
        | some a =>
          rw [step_of_presented hawake hbusy hpins]
          exact acceptCycle_answers_next a _
        | none => exact ⟨_, step_of_nothing_presented hawake hbusy hpins⟩

end Sys2Proof.Machine
end

section
/-! PROOFS. The spread and compact stages (40_codec.md R109 to R112), one law per stage: a stage halves
or doubles the size of the blocks that the 32 bits stand in. -/

namespace Sys2Proof.Machine

/-- The bits `f 0`, `f 1`, … stand in `w` in blocks of `n`, each followed by `n` zeros. The layouts
between the stages of R109 (`n` = 32, 16, …, 1) and of R111 (`n` = 1, 2, …, 32). -/
def InBlocks (n : Nat) (f : Nat → Bool) (w : Index) : Prop :=
  ∀ q r, r < n →
    w.getLsbD (2 * (n * q) + r) = f (n * q + r) ∧ w.getLsbD (2 * (n * q) + n + r) = false

/-- The bits of a lane: at most 32. -/
def IsLane (f : Nat → Bool) : Prop := ∀ i, 32 ≤ i → f i = false

theorem testBit_eq_false_of_lt_of_le {p n i : Nat} (hp : p < 2 ^ n) (hi : n ≤ i) : p.testBit i = false :=
  Nat.testBit_lt_two_pow (lt_of_lt_of_le hp (Nat.pow_le_pow_right (by decide) hi))

theorem getLsbD_eq_false_of_toNat_lt {w n i : Nat} {x : BitVec w} (hx : x.toNat < 2 ^ n) (hi : n ≤ i) :
    x.getLsbD i = false :=
  testBit_eq_false_of_lt_of_le hx hi

theorem isLane_of_toNat_lt {v : Index} (hv : v.toNat < 2 ^ 32) : IsLane v.getLsbD := fun _ hi =>
  getLsbD_eq_false_of_toNat_lt hv hi

theorem IsLane.and_lt {f : Nat → Bool} (hf : IsLane f) (i : Nat) : (f i && decide (i < 32)) = f i := by
  by_cases hi : i < 32
  · simp [hi]
  · simp [hf i (Nat.le_of_not_lt hi)]

/-- A mask that keeps the blocks of `n`: 32 ones, in blocks of `n`. -/
def KeepsBlocks (n : Nat) (mask : Index) : Prop := InBlocks n (fun i => decide (i < 32)) mask

/-- Of a mask only the bits below 64 have to be checked. -/
theorem keepsBlocks_of_bits {n c : Nat} {mask : Index} (hc : 32 = n * c)
    (hmask : ∀ q, q < c → ∀ r, r < n →
      mask.getLsbD (2 * (n * q) + r) = true ∧ mask.getLsbD (2 * (n * q) + n + r) = false) :
    KeepsBlocks n mask := by
  intro q r hr
  by_cases hq : q < c
  · have hblock : n * (q + 1) ≤ n * c := Nat.mul_le_mul_left n hq
    have hin : n * q + r < 32 := by rw [Nat.mul_succ] at hblock; omega
    simpa [hin] using hmask q hq r hr
  · have hblock : n * c ≤ n * q := Nat.mul_le_mul_left n (Nat.le_of_not_lt hq)
    have hout : ¬ n * q + r < 32 := by omega
    simp only [hout, decide_false]
    exact ⟨BitVec.getLsbD_of_ge _ _ (by omega), BitVec.getLsbD_of_ge _ _ (by omega)⟩

theorem keepsBlocks_maskB0 : KeepsBlocks 1 maskB0 := keepsBlocks_of_bits (c := 32) rfl (by decide)
theorem keepsBlocks_maskB1 : KeepsBlocks 2 maskB1 := keepsBlocks_of_bits (c := 16) rfl (by decide)
theorem keepsBlocks_maskB2 : KeepsBlocks 4 maskB2 := keepsBlocks_of_bits (c := 8) rfl (by decide)
theorem keepsBlocks_maskB3 : KeepsBlocks 8 maskB3 := keepsBlocks_of_bits (c := 4) rfl (by decide)
theorem keepsBlocks_maskB4 : KeepsBlocks 16 maskB4 := keepsBlocks_of_bits (c := 2) rfl (by decide)
theorem keepsBlocks_maskB5 : KeepsBlocks 32 maskB5 := keepsBlocks_of_bits (c := 1) rfl (by decide)

theorem spreadStage_getLsbD (n : Nat) (mask w : Index) (i : Nat) :
    (spreadStage n mask w).getLsbD i =
      ((w.getLsbD i || !decide (i < n) && w.getLsbD (i - n)) && mask.getLsbD i) := by
  by_cases hi : i < 64
  · simp only [spreadStage, BitVec.getLsbD_and, BitVec.getLsbD_or, BitVec.getLsbD_shiftLeft, hi, decide_true,
      Bool.true_and]
  · simp [BitVec.getLsbD_of_ge _ _ (Nat.le_of_not_lt hi)]

theorem compactStage_getLsbD (n : Nat) (mask w : Index) (i : Nat) :
    (compactStage n mask w).getLsbD i = ((w.getLsbD i || w.getLsbD (n + i)) && mask.getLsbD i) := by
  simp [compactStage]

/-- A stage of the spread halves the blocks (R109). A block of even number stays, and what the shift
brings there is the zeros above the block before it; a block of odd number is the upper half of a block
of the operand, and the shift brings it there. -/
theorem inBlocks_spreadStage {n : Nat} {f : Nat → Bool} {mask w : Index} (hf : IsLane f)
    (hmask : KeepsBlocks n mask) (hw : InBlocks (2 * n) f w) :
    InBlocks n f (spreadStage n mask w) := by
  intro q r hr
  obtain ⟨hones, hzeros⟩ := hmask q r hr
  refine ⟨?_, by rw [spreadStage_getLsbD, hzeros, Bool.and_false]⟩
  rw [spreadStage_getLsbD, hones]
  suffices hbit : (w.getLsbD (2 * (n * q) + r)
      || !decide (2 * (n * q) + r < n) && w.getLsbD (2 * (n * q) + r - n)) = f (n * q + r) by
    rw [hbit, hf.and_lt]
  obtain ⟨a, rfl | rfl⟩ := Nat.even_or_odd' q
  · have hstay := (hw a r (by omega)).1
    have hpos : n * (2 * a) = 2 * n * a := by ring
    rw [hpos, hstay]
    cases a with
    | zero => simp [hr]
    | succ b =>
      have hzero := (hw b (n + r) (by omega)).2
      have hfrom : 2 * (2 * n * (b + 1)) + r - n = 2 * (2 * n * b) + 2 * n + (n + r) := by
        rw [Nat.mul_succ]; omega
      rw [hfrom, hzero, Bool.and_false, Bool.or_false]
  · have hzero := (hw a r (by omega)).2
    have hmoved := (hw a (n + r) (by omega)).1
    have hpos : 2 * (n * (2 * a + 1)) + r = 2 * (2 * n * a) + 2 * n + r := by ring
    have hfrom : 2 * (2 * n * a) + 2 * n + r - n = 2 * (2 * n * a) + (n + r) := by omega
    have hsource : n * (2 * a + 1) + r = 2 * n * a + (n + r) := by ring
    have hge : ¬ 2 * (2 * n * a) + 2 * n + r < n := by omega
    simp [hpos, hfrom, hsource, hzero, hmoved, hge]

/-- A stage of the compact doubles the blocks (R111): the shift brings each block of odd number down
to the block before it. -/
theorem inBlocks_compactStage {n : Nat} {f : Nat → Bool} {mask w : Index} (hf : IsLane f)
    (hmask : KeepsBlocks (2 * n) mask) (hw : InBlocks n f w) :
    InBlocks (2 * n) f (compactStage n mask w) := by
  intro q r hr
  obtain ⟨hones, hzeros⟩ := hmask q r hr
  refine ⟨?_, by rw [compactStage_getLsbD, hzeros, Bool.and_false]⟩
  rw [compactStage_getLsbD, hones]
  suffices hbit : (w.getLsbD (2 * (2 * n * q) + r) || w.getLsbD (n + (2 * (2 * n * q) + r)))
      = f (2 * n * q + r) by
    rw [hbit, hf.and_lt]
  have heven : n * (2 * q) = 2 * n * q := by ring
  have hodd : n * (2 * q + 1) = 2 * n * q + n := by ring
  by_cases hlow : r < n
  · obtain ⟨hstay, hzero⟩ := hw (2 * q) r hlow
    have hfrom : n + (2 * (2 * n * q) + r) = 2 * (2 * n * q) + n + r := by omega
    rw [heven] at hstay hzero
    rw [hfrom, hstay, hzero, Bool.or_false]
  · obtain ⟨k, rfl⟩ := Nat.exists_eq_add_of_le (Nat.le_of_not_lt hlow)
    have hzero := (hw (2 * q) k (by omega)).2
    have hmoved := (hw (2 * q + 1) k (by omega)).1
    have hfrom : n + (2 * (2 * n * q) + (n + k)) = 2 * (2 * n * q + n) + k := by omega
    rw [heven] at hzero
    rw [hodd] at hmoved
    rw [hfrom, hmoved, ← Nat.add_assoc, hzero, Bool.false_or, Nat.add_assoc]

/-- A value below 2^32 is one block of 32. -/
theorem inBlocks_of_toNat_lt {v : Index} (hv : v.toNat < 2 ^ 32) : InBlocks 32 v.getLsbD v := by
  intro q r hr
  have hlane := isLane_of_toNat_lt hv
  refine ⟨?_, hlane _ (by omega)⟩
  cases q with
  | zero => simp
  | succ b => rw [hlane _ (by omega), hlane _ (by omega)]

/-- The spread leaves blocks of one bit, by its five stages (R110). -/
theorem inBlocks_spread32 {v : Index} (hv : v.toNat < 2 ^ 32) : InBlocks 1 v.getLsbD (spread32 v) := by
  have hlane := isLane_of_toNat_lt hv
  have h16 := inBlocks_spreadStage hlane keepsBlocks_maskB4 (inBlocks_of_toNat_lt hv)
  have h8 := inBlocks_spreadStage hlane keepsBlocks_maskB3 h16
  have h4 := inBlocks_spreadStage hlane keepsBlocks_maskB2 h8
  have h2 := inBlocks_spreadStage hlane keepsBlocks_maskB1 h4
  exact inBlocks_spreadStage hlane keepsBlocks_maskB0 h2

/-- The even bits of a value, read out. -/
def evenBitOf (v : Index) (i : Nat) : Bool := v.getLsbD (2 * i)

theorem isLane_evenBitOf (v : Index) : IsLane (evenBitOf v) := fun i hi =>
  BitVec.getLsbD_of_ge v (2 * i) (by omega)

/-- The first stage of the compact drops the odd bits (R111). -/
theorem inBlocks_even (v : Index) : InBlocks 1 (evenBitOf v) (v &&& maskB0) := by
  intro q r hr
  obtain ⟨hones, hzeros⟩ := keepsBlocks_maskB0 q r hr
  obtain rfl : r = 0 := by omega
  refine ⟨?_, by rw [BitVec.getLsbD_and, hzeros, Bool.and_false]⟩
  rw [BitVec.getLsbD_and, hones, Nat.one_mul]
  exact (isLane_evenBitOf v).and_lt q

/-- The compact leaves one block of 32, by its six stages (R112). -/
theorem inBlocks_compact32 (v : Index) : InBlocks 32 (evenBitOf v) (compact32 v) := by
  have hlane := isLane_evenBitOf v
  have h2 := inBlocks_compactStage hlane keepsBlocks_maskB1 (inBlocks_even v)
  have h4 := inBlocks_compactStage hlane keepsBlocks_maskB2 h2
  have h8 := inBlocks_compactStage hlane keepsBlocks_maskB3 h4
  have h16 := inBlocks_compactStage hlane keepsBlocks_maskB4 h8
  exact inBlocks_compactStage hlane keepsBlocks_maskB5 h16

/-! ## The laws of R110 and R112 -/

theorem spread32_getLsbD_even {v : Index} (hv : v.toNat < 2 ^ 32) (i : Nat) :
    (spread32 v).getLsbD (2 * i) = v.getLsbD i := by
  simpa using (inBlocks_spread32 hv i 0 Nat.one_pos).1

theorem spread32_getLsbD_odd {v : Index} (hv : v.toNat < 2 ^ 32) (i : Nat) :
    (spread32 v).getLsbD (2 * i + 1) = false := by
  simpa using (inBlocks_spread32 hv i 0 Nat.one_pos).2

theorem interleave_getLsbD_even {x y : Index} (hx : x.toNat < 2 ^ 32) (hy : y.toNat < 2 ^ 32) (i : Nat) :
    (interleave x y).getLsbD (2 * i) = x.getLsbD i := by
  have hshift : (spread32 y <<< 1).getLsbD (2 * i) = false := by
    cases i with
    | zero => simp
    | succ j => simp [Nat.mul_succ, spread32_getLsbD_odd hy j]
  rw [interleave, BitVec.getLsbD_or, hshift, spread32_getLsbD_even hx, Bool.or_false]

theorem interleave_getLsbD_odd {x y : Index} (hx : x.toNat < 2 ^ 32) (hy : y.toNat < 2 ^ 32) (i : Nat) :
    (interleave x y).getLsbD (2 * i + 1) = y.getLsbD i := by
  rw [interleave, BitVec.getLsbD_or, spread32_getLsbD_odd hx, Bool.false_or]
  by_cases hi : i < 32
  · rw [BitVec.getLsbD_shiftLeft, decide_eq_true (by omega), Nat.add_sub_cancel, spread32_getLsbD_even hy]
    simp
  · rw [isLane_of_toNat_lt hy i (by omega)]
    exact BitVec.getLsbD_of_ge _ _ (by omega)

theorem compact32_getLsbD (v : Index) (i : Nat) :
    (compact32 v).getLsbD i = (decide (i < 32) && v.getLsbD (2 * i)) := by
  by_cases hi : i < 32
  · simpa [hi, evenBitOf] using (inBlocks_compact32 v 0 i hi).1
  · by_cases h64 : i < 64
    · obtain ⟨k, rfl⟩ := Nat.exists_eq_add_of_le (Nat.le_of_not_lt hi)
      simpa using (inBlocks_compact32 v 0 k (by omega)).2
    · simp [hi, BitVec.getLsbD_of_ge _ i (Nat.le_of_not_lt h64)]

theorem compact32_toNat_lt (v : Index) : (compact32 v).toNat < 2 ^ 32 := by
  refine Nat.lt_pow_two_of_testBit _ fun i hi => ?_
  rw [BitVec.testBit_toNat, compact32_getLsbD, decide_eq_false (Nat.not_lt.2 hi), Bool.false_and]

/-- The odd bits have no effect (R112). -/
theorem compact32_congr {v w : Index} (h : ∀ i, i < 32 → v.getLsbD (2 * i) = w.getLsbD (2 * i)) :
    compact32 v = compact32 w := by
  apply BitVec.eq_of_getLsbD_eq
  intro i _
  rw [compact32_getLsbD, compact32_getLsbD]
  by_cases hi : i < 32
  · rw [h i hi]
  · simp [hi]

theorem compact32_spread32 {a : Index} (ha : a.toNat < 2 ^ 32) : compact32 (spread32 a) = a := by
  apply BitVec.eq_of_getLsbD_eq
  intro i _
  rw [compact32_getLsbD, spread32_getLsbD_even ha, Bool.and_comm, (isLane_of_toNat_lt ha).and_lt]

/-- Settles O27: the spread leaves blocks of one bit, and the shift by 1 fills the odd places. -/
theorem spreadPlacesBits : Obligations.SpreadPlacesBits :=
  ⟨fun _ hv i _ => ⟨spread32_getLsbD_even hv i, spread32_getLsbD_odd hv i⟩,
    fun _ _ hx hy i _ => ⟨interleave_getLsbD_even hx hy i, interleave_getLsbD_odd hx hy i⟩⟩

/-- Settles O28: the compact leaves one block, the even bits of its operand. -/
theorem compactTakesEvenBits : Obligations.CompactTakesEvenBits :=
  ⟨fun v => ⟨compact32_toNat_lt v, fun i hi => by simp [compact32_getLsbD, hi]⟩,
    fun _ _ h => compact32_congr h, fun _ ha => compact32_spread32 ha⟩

end Sys2Proof.Machine
end

section
/-! PROOFS. The predicates of CHECK in terms of the bits of the index (40_codec.md R107, R108, R119). -/

namespace Sys2Proof.Machine

theorem extractLsb'_eq_iff (v : Index) (start len : Nat) (w : BitVec len) :
    v.extractLsb' start len = w ↔ ∀ i, i < len → v.getLsbD (start + i) = w.getLsbD i := by
  rw [BitVec.eq_of_getLsbD_eq_iff]
  exact forall₂_congr fun i hi => by simp [hi]

theorem topBit_eq_zero_iff (v : Index) : topBit v = 0#1 ↔ v.getLsbD 63 = false := by
  simp [topBit, extractLsb'_eq_iff]

theorem hdrBit_eq_one_iff (v : Index) : hdrBit v = 1#1 ↔ v.getLsbD 62 = true := by
  simp [hdrBit, extractLsb'_eq_iff]

theorem extraField_eq_zero_iff (v : Index) :
    extraField v = 0#2 ↔ v.getLsbD 58 = false ∧ v.getLsbD 57 = false := by
  rw [extraField, extractLsb'_eq_iff]
  simp only [BitVec.getLsbD_zero]
  refine ⟨fun h => ⟨h 1 (by decide), h 0 (by decide)⟩, fun ⟨h58, h57⟩ i hi => ?_⟩
  interval_cases i
  · exact h57
  · exact h58

theorem modeField_toNat (v : Index) : (modeField v).toNat = v.toNat / 2 ^ 59 % 8 := by
  simp [modeField, BitVec.extractLsb'_toNat, Nat.shiftRight_eq_div_pow]

/-- The footer test asks for ones below the position bits (R106, R107). -/
theorem and_footer_eq_iff (v : Index) (z : Nat) :
    v &&& footer z = footer z ↔ ∀ i, i + 2 * z < 52 → v.getLsbD i = true := by
  rw [BitVec.eq_of_getLsbD_eq_iff]
  constructor
  · intro h i hi
    simpa [footer_getLsbD, hi] using h i (by omega)
  · intro h i _
    by_cases hi : i + 2 * z < 52
    · rw [BitVec.getLsbD_and, h i hi, Bool.true_and]
    · simp [footer_getLsbD, hi]

theorem validIndex_iff (v : Index) :
    validIndex v = true ↔
      v.getLsbD 63 = false ∧ v.getLsbD 62 = true ∧ v.toNat / 2 ^ 59 % 8 ≠ 7
        ∧ resOf v ≤ 26 ∧ ∀ i, i + 2 * resOf v < 52 → v.getLsbD i = true := by
  have hmode : modeField v = 7#3 ↔ v.toNat / 2 ^ 59 % 8 = 7 := by
    rw [← BitVec.toNat_inj, modeField_toNat]; rfl
  have hres : decide (resOf v ≤ Config.maxRes) = true ↔ resOf v ≤ 26 := decide_eq_true_iff
  simp only [validIndex, Bool.and_eq_true, beq_iff_eq, bne_iff_ne, hres,
    topBit_eq_zero_iff, hdrBit_eq_one_iff, and_footer_eq_iff, ne_eq, hmode, and_assoc]

theorem validCell_iff (v : Index) :
    validCell v = true ↔ validIndex v = true ∧ v.toNat / 2 ^ 59 % 8 = 1 := by
  have hmode : modeField v = 1#3 ↔ v.toNat / 2 ^ 59 % 8 = 1 := by
    rw [← BitVec.toNat_inj, modeField_toNat]; rfl
  rw [validCell, Bool.and_eq_true, beq_iff_eq, hmode]

theorem resOf_le_of_validCell {v : Index} (h : validCell v = true) : resOf v ≤ 26 := by
  obtain ⟨-, -, -, hz, -⟩ := (validIndex_iff v).1 ((validCell_iff v).1 h).1
  exact hz

theorem canonicalCell_iff (v : Index) :
    canonicalCell v = true ↔ validCell v = true ∧ v.getLsbD 58 = false ∧ v.getLsbD 57 = false := by
  rw [canonicalCell, Bool.and_eq_true, beq_iff_eq, extraField_eq_zero_iff]

/-- Settles O33: CHECK writes the three predicates, whose bits are known. -/
theorem checkWritesThePredicates : Obligations.CheckWritesThePredicates := fun s =>
  ⟨_, execCheck_eq s, rfl, validIndex_iff s.idxIn, validCell_iff s.idxIn, canonicalCell_iff s.idxIn⟩

end Sys2Proof.Machine
end

section
/-! PROOFS. The index PACK writes (40_codec.md R116, R117), bit by bit: a header with the resolution, the
interleaved coordinates, the footer. -/

namespace Sys2Proof.Machine

theorem tileInRange_iff (z : Nat) (x y : Word) :
    tileInRange z x y = true ↔ x.toNat < 2 ^ z ∧ y.toNat < 2 ^ z := by
  simp [tileInRange]

/-! ## The code of a tile -/

/-- The code `m` of R116: the coordinates at the top of their lanes, interleaved. -/
def tileCode (z : Nat) (x y : Word) : Index := interleave (alignLane z x) (alignLane z y)

theorem alignLane_toNat_lt {z : Nat} {x : Word} (hz : z ≤ 32) (hx : x.toNat < 2 ^ z) :
    (alignLane z x).toNat < 2 ^ 32 := by
  calc (alignLane z x).toNat
    _ ≤ x.toNat * 2 ^ (32 - z) := by
      rw [alignLane, BitVec.toNat_shiftLeft, Nat.shiftLeft_eq, BitVec.toNat_setWidth_of_le (by decide)]
      exact Nat.mod_le _ _
    _ < 2 ^ z * 2 ^ (32 - z) := Nat.mul_lt_mul_of_pos_right hx (by positivity)
    _ = 2 ^ 32 := by rw [← Nat.pow_add, Nat.add_sub_cancel' hz]

theorem alignLane_getLsbD_low (z : Nat) (x : Word) {i : Nat} (hi : i < 32 - z) :
    (alignLane z x).getLsbD i = false := by
  simp [alignLane, hi]

theorem alignLane_getLsbD_high {z j : Nat} (x : Word) (hz : z ≤ 32) (hj : j < z) :
    (alignLane z x).getLsbD (j + 32 - z) = x.getLsbD j := by
  have hplace : j + 32 - z - (32 - z) = j := by omega
  have hlow : ¬ j + 32 - z < 32 - z := by omega
  simp [alignLane, hplace, hlow, show j + 32 - z < 64 by omega]

section Tile

variable {z : Nat} {x y : Word} (hz : z ≤ 32) (hx : x.toNat < 2 ^ z) (hy : y.toNat < 2 ^ z)
include hz hx hy

/-- Bit `j` of x goes to bit `2(j + 32 − z)` of the code (R117). -/
theorem tileCode_getLsbD_x {j : Nat} (hj : j < z) :
    (tileCode z x y).getLsbD (2 * (j + 32 - z)) = x.getLsbD j := by
  rw [tileCode, interleave_getLsbD_even (alignLane_toNat_lt hz hx) (alignLane_toNat_lt hz hy),
    alignLane_getLsbD_high x hz hj]

theorem tileCode_getLsbD_y {j : Nat} (hj : j < z) :
    (tileCode z x y).getLsbD (2 * (j + 32 - z) + 1) = y.getLsbD j := by
  rw [tileCode, interleave_getLsbD_odd (alignLane_toNat_lt hz hx) (alignLane_toNat_lt hz hy),
    alignLane_getLsbD_high y hz hj]

/-- The bits below those of the coordinates are 0, the 12 that PACK drops among them (R117). -/
theorem tileCode_getLsbD_low {i : Nat} (hi : i < 64 - 2 * z) : (tileCode z x y).getLsbD i = false := by
  have hxlane := alignLane_toNat_lt hz hx
  have hylane := alignLane_toNat_lt hz hy
  obtain ⟨k, rfl | rfl⟩ := Nat.even_or_odd' i
  · rw [tileCode, interleave_getLsbD_even hxlane hylane, alignLane_getLsbD_low z x (by omega)]
  · rw [tileCode, interleave_getLsbD_odd hxlane hylane, alignLane_getLsbD_low z y (by omega)]

end Tile

/-! ## The bits of the index -/

theorem headerMask_getLsbD (i : Nat) : headerMask.getLsbD i = decide (i = 62) := by
  by_cases hi : i < 64
  · interval_cases i <;> rfl
  · simp [BitVec.getLsbD_of_ge _ _ (Nat.le_of_not_lt hi), show i ≠ 62 by omega]

theorem modeCell_getLsbD (i : Nat) : modeCell.getLsbD i = decide (i = 59) := by
  by_cases hi : i < 64
  · interval_cases i <;> rfl
  · simp [BitVec.getLsbD_of_ge _ _ (Nat.le_of_not_lt hi), show i ≠ 59 by omega]

theorem resBits_getLsbD {z : Nat} (hz : z < 2 ^ 5) (i : Nat) :
    (resBits z).getLsbD i = (decide (52 ≤ i ∧ i < 57) && z.testBit (i - 52)) := by
  rw [resBits, BitVec.getLsbD_shiftLeft, BitVec.getLsbD_ofNat]
  by_cases hlow : i < 52
  · simp [hlow, Nat.not_le.2 hlow]
  · by_cases hhigh : i < 57
    · simp [hlow, hhigh, Nat.le_of_not_lt hlow, show i < 64 by omega, show i - 52 < 64 by omega]
    · simp [hhigh, testBit_eq_false_of_lt_of_le hz (show 5 ≤ i - 52 by omega)]

/-- Every bit of the index of a tile, from the footer up: ones, the code without its low 12 bits, the
resolution, and the header with the mode (R117). -/
theorem packIndex_getLsbD {z : Nat} (x y : Word) (hz : z ≤ 26) (i : Nat) :
    (packIndex z x y).getLsbD i =
      if i < 52 - 2 * z then true else if i < 52 then (tileCode z x y).getLsbD (12 + i)
      else if i < 57 then z.testBit (i - 52) else decide (i = 59 ∨ i = 62) := by
  simp only [packIndex, BitVec.getLsbD_or, headerMask_getLsbD, modeCell_getLsbD,
    resBits_getLsbD (show z < 2 ^ 5 by omega), footer_getLsbD, BitVec.getLsbD_ushiftRight]
  rw [← tileCode]
  by_cases hfooter : i < 52 - 2 * z
  · simp [hfooter, show i + 2 * z < 52 by omega]
  · have habove : ¬ i + 2 * z < 52 := by omega
    by_cases hpos : i < 52
    · simp [hfooter, hpos, habove, show i ≠ 62 by omega, show i ≠ 59 by omega, Nat.not_le.2 hpos]
    · have hcode : (tileCode z x y).getLsbD (12 + i) = false := BitVec.getLsbD_of_ge _ _ (by omega)
      by_cases hres : i < 57
      · simp [hfooter, hpos, hres, habove, hcode, show i ≠ 62 by omega, show i ≠ 59 by omega,
          Nat.le_of_not_lt hpos]
      · simp [hfooter, hpos, hres, habove, hcode, Bool.or_comm]

/-! ## The header, and why the index is canonical -/

/-- The header and the mode stand three places apart: together they are the number 9. -/
theorem testBit_nine (k : Nat) : Nat.testBit 9 k = decide (k = 0 ∨ k = 3) := by
  by_cases hk : k < 4
  · interval_cases k <;> rfl
  · rw [testBit_eq_false_of_lt_of_le (by decide : 9 < 2 ^ 4) (by omega), decide_eq_false (by omega)]

/-- The twelve bits above the position field: TOP 0, HDR 1, mode 1, EXTRA 0 and the resolution (R100,
R117). -/
theorem packIndex_toNat_div {z : Nat} (x y : Word) (hz : z ≤ 26) :
    (packIndex z x y).toNat / 2 ^ 52 = 2 ^ 7 * 9 + z := by
  apply Nat.eq_of_testBit_eq
  intro i
  rw [Nat.testBit_div_two_pow, BitVec.testBit_toNat, packIndex_getLsbD x y hz, if_neg (by omega),
    if_neg (by omega), Nat.add_sub_cancel, Nat.testBit_two_pow_mul_add 9 (by omega : z < 2 ^ 7)]
  by_cases hres : i < 5
  · rw [if_pos (by omega), if_pos (by omega)]
  · rw [if_neg (by omega)]
    by_cases hextra : i < 7
    · rw [if_pos hextra, testBit_eq_false_of_lt_of_le (by omega : z < 2 ^ 5) (by omega), decide_eq_false (by omega)]
    · rw [if_neg hextra, testBit_nine, decide_eq_decide]
      omega

theorem resOf_packIndex {z : Nat} (x y : Word) (hz : z ≤ 26) : resOf (packIndex z x y) = z := by
  rw [resOf_eq, packIndex_toNat_div x y hz]
  omega

theorem canonicalCell_packIndex {z : Nat} (x y : Word) (hz : z ≤ 26) :
    canonicalCell (packIndex z x y) = true := by
  have hbit := packIndex_getLsbD x y hz
  have hmode : (packIndex z x y).toNat / 2 ^ 59 % 8 = 1 := by
    have hheader := packIndex_toNat_div x y hz
    omega
  rw [canonicalCell_iff, validCell_iff, validIndex_iff, resOf_packIndex x y hz, hmode]
  refine ⟨⟨⟨?top, ?hdr, by decide, hz, fun i hi => ?footer⟩, rfl⟩, ?extra1, ?extra0⟩
  case footer => rw [hbit, if_pos (by omega)]
  all_goals
    rw [hbit, if_neg (by omega), if_neg (by decide), if_neg (by decide)]
    decide

/-! ## The position bits -/

section Tile

variable {z : Nat} {x y : Word} (hz : z ≤ 26) (hx : x.toNat < 2 ^ z) (hy : y.toNat < 2 ^ z)
include hz hx hy

theorem packIndex_getLsbD_x {j : Nat} (hj : j < z) :
    (packIndex z x y).getLsbD (2 * j + 52 - 2 * z) = x.getLsbD j := by
  rw [packIndex_getLsbD x y hz, if_neg (by omega), if_pos (by omega), ← tileCode_getLsbD_x (by omega) hx hy hj]
  congr 1
  omega

theorem packIndex_getLsbD_y {j : Nat} (hj : j < z) :
    (packIndex z x y).getLsbD (2 * j + 53 - 2 * z) = y.getLsbD j := by
  rw [packIndex_getLsbD x y hz, if_neg (by omega), if_pos (by omega), ← tileCode_getLsbD_y (by omega) hx hy hj]
  congr 1
  omega

end Tile

/-! ## The index as a sum -/

/-- The low `a + 2 * k` bits of a number are its low `a` bits and `k` pairs of bits above them. -/
theorem mod_two_pow_add_pairs (p a k : Nat) :
    p % 2 ^ (a + 2 * k) =
      ((List.range k).map fun j =>
        (p.testBit (a + 2 * j)).toNat * 2 ^ (a + 2 * j)
          + (p.testBit (a + 2 * j + 1)).toNat * 2 ^ (a + 2 * j + 1)).sum + p % 2 ^ a := by
  induction k with
  | zero => simp
  | succ k ih =>
    have hsplit : ∀ i, p % 2 ^ (i + 1) = p % 2 ^ i + (p.testBit i).toNat * 2 ^ i := fun i => by
      rw [Nat.mod_pow_succ, Nat.toNat_testBit, Nat.mul_comm]
    rw [List.range_succ, List.map_append, List.sum_append, Nat.mul_succ, ← Nat.add_assoc, hsplit, hsplit, ih]
    simp only [List.map_cons, List.map_nil, List.sum_cons, List.sum_nil]
    omega

theorem packIndex_toNat {z : Nat} {x y : Word} (hz : z ≤ 26) (hx : x.toNat < 2 ^ z) (hy : y.toNat < 2 ^ z) :
    (packIndex z x y).toNat = 2 ^ 62 + 2 ^ 59 + z * 2 ^ 52
      + ((List.range z).map fun j =>
          (x.getLsbD j).toNat * 2 ^ (52 - 2 * z + 2 * j) + (y.getLsbD j).toNat * 2 ^ (53 - 2 * z + 2 * j)).sum
      + (2 ^ (52 - 2 * z) - 1) := by
  have hheader := packIndex_toNat_div x y hz
  have hfooter : (packIndex z x y).toNat % 2 ^ (52 - 2 * z) = 2 ^ (52 - 2 * z) - 1 := by
    apply Nat.eq_of_testBit_eq
    intro i
    rw [Nat.testBit_mod_two_pow, Nat.testBit_two_pow_sub_one, BitVec.testBit_toNat, packIndex_getLsbD x y hz]
    by_cases hi : i < 52 - 2 * z <;> simp [hi]
  have hpairs := mod_two_pow_add_pairs (packIndex z x y).toNat (52 - 2 * z) z
  have hterms : ∀ j ∈ List.range z,
      ((packIndex z x y).toNat.testBit (52 - 2 * z + 2 * j)).toNat * 2 ^ (52 - 2 * z + 2 * j)
          + ((packIndex z x y).toNat.testBit (52 - 2 * z + 2 * j + 1)).toNat * 2 ^ (52 - 2 * z + 2 * j + 1)
        = (x.getLsbD j).toNat * 2 ^ (52 - 2 * z + 2 * j) + (y.getLsbD j).toNat * 2 ^ (53 - 2 * z + 2 * j) := by
    intro j hj
    have hjz : j < z := List.mem_range.1 hj
    rw [show 52 - 2 * z + 2 * j + 1 = 53 - 2 * z + 2 * j by omega, BitVec.testBit_toNat, BitVec.testBit_toNat,
      ← packIndex_getLsbD_x hz hx hy hjz, ← packIndex_getLsbD_y hz hx hy hjz]
    congr 5 <;> omega
  rw [List.map_congr_left hterms, hfooter, Nat.sub_add_cancel (by omega)] at hpairs
  omega

/-! ## PACK -/

/-- Settles O30: the two refusals of PACK, in the order of their tests. -/
theorem packRefusals : Obligations.PackRefusals := by
  intro s z
  refine ⟨fun hz => execPack_of_maxRes_lt s hz, fun hz hout => ?_⟩
  refine execPack_of_tile_out_of_range hz ?_
  rw [← Bool.not_eq_true, tileInRange_iff]
  omega

theorem exec_pack_of_tile {z : Nat} {s : State} (hz : z ≤ 26) (hx : s.xIn.toNat < 2 ^ z)
    (hy : s.yIn.toNat < 2 ^ z) :
    exec (.pack z) s = .next (complete (setRes (packIndex z s.xIn s.yIn) s)) :=
  execPack_of_tile_in_range hz ((tileInRange_iff z _ _).2 ⟨hx, hy⟩)

/-- Settles O29: PACK writes `packIndex`, whose bits give the sum. -/
theorem packClosedForm : Obligations.PackClosedForm := by
  intro s z hz hx hy
  have hz32 : z ≤ 32 := by omega
  refine ⟨_, exec_pack_of_tile hz hx hy, rfl, packIndex_toNat hz hx hy, rfl, fun j hj => ?bits,
    fun i hi => tileCode_getLsbD_low hz32 hx hy (by omega)⟩
  case bits =>
    exact ⟨packIndex_getLsbD_x hz hx hy hj, packIndex_getLsbD_y hz hx hy hj, tileCode_getLsbD_x hz32 hx hy hj⟩

/-- Settles O35: what PACK writes is canonical; a clear header or footer bit fails the index test. -/
theorem packResultIsCanonical : Obligations.PackResultIsCanonical := by
  refine ⟨fun s t u z hpack herr hu => ?canonical, fun s t hcheck hbad => ?invalid⟩
  case canonical =>
    rcases exec_next_cases hpack with ⟨e, rfl⟩ | ⟨⟨hz, -⟩, rfl⟩
    · cases herr
    · have hu : u.idxIn = packIndex z s.xIn s.yIn := hu
      have hcan : canonicalCell u.idxIn = true := hu ▸ canonicalCell_packIndex _ _ hz
      have hcell := ((canonicalCell_iff _).1 hcan).1
      exact ⟨_, execCheck_eq u, ((validCell_iff _).1 hcell).1, hcell, hcan⟩
  case invalid =>
    cases hcheck
    show validCell s.idxIn = false
    rw [← Bool.not_eq_true, validCell_iff, validIndex_iff]
    rintro ⟨⟨-, hhdr, -, -, hfooter⟩, -⟩
    rcases hbad with hzero | hclear | ⟨i, hi, hclear⟩
    · rw [hzero] at hhdr
      cases hhdr
    · cases hclear.symm.trans hhdr
    · cases hclear.symm.trans (hfooter i hi)

end Sys2Proof.Machine
end

section
/-! PROOFS. UNPACK (40_codec.md R114, R115) and the round trip with PACK (R118). -/

namespace Sys2Proof.Machine

/-! ## The coordinates of an index -/

theorem footerOnes_getLsbD (i : Nat) : footerOnes.getLsbD i = decide (i < 52) := by
  simpa [footer] using footer_getLsbD 0 i

theorem payload_getLsbD (v : Index) (i : Nat) :
    (payload v).getLsbD i = (decide (12 ≤ i ∧ i < 64) && v.getLsbD (i - 12)) := by
  rw [payload, BitVec.getLsbD_shiftLeft, BitVec.getLsbD_and, footerOnes_getLsbD]
  by_cases hlow : i < 12
  · simp [hlow, Nat.not_le.2 hlow]
  · by_cases hhigh : i < 64
    · simp [hlow, hhigh, Nat.le_of_not_lt hlow, show i - 12 < 52 by omega]
    · simp [hhigh]

/-- One lane of UNPACK, `b` being 0 for x and 1 for y: bit `j` is bit `2j + 52 + b − 2z` of the index, and 0
where that is no bit of the payload (R115). -/
theorem unpackLane_getLsbD (v : Index) {b j : Nat} (hb : b ≤ 1) (hj : j < 32) :
    ((compact32 (payload v >>> b) >>> (32 - resOf v)).setWidth 32).getLsbD j =
      if j < resOf v ∧ 2 * resOf v ≤ 2 * j + (52 + b) then v.getLsbD (2 * j + (52 + b) - 2 * resOf v)
      else false := by
  have hres := resOf_lt v
  rw [BitVec.getLsbD_setWidth, BitVec.getLsbD_ushiftRight, compact32_getLsbD, BitVec.getLsbD_ushiftRight,
    payload_getLsbD, decide_eq_true hj, Bool.true_and, ← Bool.and_assoc, ← Bool.decide_and]
  have hplace : b + 2 * (32 - resOf v + j) - 12 = 2 * j + (52 + b) - 2 * resOf v := by omega
  by_cases hbit : j < resOf v ∧ 2 * resOf v ≤ 2 * j + (52 + b)
  · rw [if_pos hbit, decide_eq_true (by omega), Bool.true_and, hplace]
  · rw [if_neg hbit, decide_eq_false (by omega), Bool.false_and]

theorem unpackX_getLsbD (v : Index) {j : Nat} (hj : j < 32) :
    (unpackX v).getLsbD j =
      if j < resOf v ∧ 2 * resOf v ≤ 2 * j + 52 then v.getLsbD (2 * j + 52 - 2 * resOf v) else false := by
  have hlane := unpackLane_getLsbD v (b := 0) (by decide) hj
  rwa [BitVec.ushiftRight_zero] at hlane

theorem unpackY_getLsbD (v : Index) {j : Nat} (hj : j < 32) :
    (unpackY v).getLsbD j =
      if j < resOf v ∧ 2 * resOf v ≤ 2 * j + 53 then v.getLsbD (2 * j + 53 - 2 * resOf v) else false :=
  unpackLane_getLsbD v (b := 1) (by decide) hj

/-- Settles O31: UNPACK writes the two lanes and the fields of IDX_IN. -/
theorem unpackClosedForm : Obligations.UnpackClosedForm := by
  intro s
  refine ⟨_, execUnpack_eq s, rfl, fun hones => ?example31, fun j hj =>
    ⟨unpackX_getLsbD s.idxIn hj, unpackY_getLsbD s.idxIn hj⟩⟩
  case example31 =>
    simp only [complete_xOut, complete_yOut, complete_fOut, setFields_xOut, setFields_yOut, setFields_fOut,
      setTile_xOut, setTile_yOut, hones]
    decide

/-! ## The round trip -/

theorem toNat_lt_two_pow_of_getLsbD {x : Word} {z : Nat} (h : ∀ j, j < 32 → z ≤ j → x.getLsbD j = false) :
    x.toNat < 2 ^ z := by
  refine Nat.lt_pow_two_of_testBit _ fun j hj => ?_
  by_cases hj32 : j < 32
  · exact h j hj32 hj
  · exact BitVec.getLsbD_of_ge x j (Nat.le_of_not_lt hj32)

/-- UNPACK gives a legal tile of the index's resolution (R115). -/
theorem unpackX_toNat_lt (v : Index) : (unpackX v).toNat < 2 ^ resOf v :=
  toNat_lt_two_pow_of_getLsbD fun j hj hz => by rw [unpackX_getLsbD v hj, if_neg (by omega)]

theorem unpackY_toNat_lt (v : Index) : (unpackY v).toNat < 2 ^ resOf v :=
  toNat_lt_two_pow_of_getLsbD fun j hj hz => by rw [unpackY_getLsbD v hj, if_neg (by omega)]

theorem fieldsWord_mod_32 (v : Index) : (fieldsWord v).toNat % 32 = resOf v := by
  show (fieldsWord v).toNat % 2 ^ 5 = _
  rw [resOf_eq]
  apply Nat.eq_of_testBit_eq
  intro i
  rw [Nat.testBit_mod_two_pow, Nat.testBit_mod_two_pow, Nat.testBit_div_two_pow, BitVec.testBit_toNat,
    BitVec.testBit_toNat, fieldsWord_getLsbD]
  by_cases hi : i < 5
  · rw [if_pos hi, Nat.add_comm]
  · rw [decide_eq_false hi, Bool.false_and, Bool.false_and]

section Tile

variable {z : Nat} {x y : Word} (hz : z ≤ 26) (hx : x.toNat < 2 ^ z) (hy : y.toNat < 2 ^ z)
include hz hx hy

theorem unpackX_packIndex : unpackX (packIndex z x y) = x := by
  apply BitVec.eq_of_getLsbD_eq
  intro j hj
  rw [unpackX_getLsbD _ hj, resOf_packIndex x y hz]
  by_cases hjz : j < z
  · rw [if_pos (by omega), packIndex_getLsbD_x hz hx hy hjz]
  · rw [if_neg (by omega), getLsbD_eq_false_of_toNat_lt hx (Nat.le_of_not_lt hjz)]

theorem unpackY_packIndex : unpackY (packIndex z x y) = y := by
  apply BitVec.eq_of_getLsbD_eq
  intro j hj
  rw [unpackY_getLsbD _ hj, resOf_packIndex x y hz]
  by_cases hjz : j < z
  · rw [if_pos (by omega), packIndex_getLsbD_y hz hx hy hjz]
  · rw [if_neg (by omega), getLsbD_eq_false_of_toNat_lt hy (Nat.le_of_not_lt hjz)]

end Tile

/-- The index PACK makes of the tile UNPACK reads. -/
def repack (v : Index) : Index := packIndex (resOf v) (unpackX v) (unpackY v)

/-- The position bits come back where they were. -/
theorem repack_getLsbD_position {v : Index} {i : Nat} (hz : resOf v ≤ 26) (hlo : 52 - 2 * resOf v ≤ i)
    (hhi : i < 52) : (repack v).getLsbD i = v.getLsbD i := by
  have hx := unpackX_toNat_lt v
  have hy := unpackY_toNat_lt v
  obtain ⟨k, hk⟩ := Nat.exists_eq_add_of_le hlo
  obtain ⟨j, rfl | rfl⟩ := Nat.even_or_odd' k
  · have hi : i = 2 * j + 52 - 2 * resOf v := by omega
    rw [hi, repack, packIndex_getLsbD_x hz hx hy (by omega), unpackX_getLsbD v (by omega), if_pos (by omega)]
  · have hi : i = 2 * j + 53 - 2 * resOf v := by omega
    rw [hi, repack, packIndex_getLsbD_y hz hx hy (by omega), unpackY_getLsbD v (by omega), if_pos (by omega)]

/-- The mask of EXTRA, bits 58 and 57 (R104). -/
def extraMask : Index := 0x3#64 <<< 57

theorem extraMask_getLsbD (i : Nat) : extraMask.getLsbD i = decide (i = 57 ∨ i = 58) := by
  by_cases hi : i < 64
  · interval_cases i <;> rfl
  · rw [BitVec.getLsbD_of_ge _ _ (Nat.le_of_not_lt hi), decide_eq_false (by omega)]

theorem clearExtra_getLsbD (v : Index) {i : Nat} (hi : i < 64) :
    (v &&& ~~~extraMask).getLsbD i = (v.getLsbD i && !decide (i = 57 ∨ i = 58)) := by
  rw [BitVec.getLsbD_and, BitVec.getLsbD_not, extraMask_getLsbD, decide_eq_true hi, Bool.true_and]

theorem clearExtra_of_clear {v : Index} (h57 : v.getLsbD 57 = false) (h58 : v.getLsbD 58 = false) :
    v &&& ~~~extraMask = v := by
  apply BitVec.eq_of_getLsbD_eq
  intro i hi
  rw [clearExtra_getLsbD v hi]
  by_cases hextra : i = 57 ∨ i = 58
  · rcases hextra with rfl | rfl
    · rw [h57, Bool.false_and]
    · rw [h58, Bool.false_and]
  · rw [decide_eq_false hextra, Bool.not_false, Bool.and_true]

theorem resOf_testBit (v : Index) {i : Nat} (hi : i < 5) : (resOf v).testBit i = v.getLsbD (52 + i) := by
  rw [resOf_eq, Nat.testBit_mod_two_pow, Nat.testBit_div_two_pow, decide_eq_true hi, Bool.true_and,
    Nat.add_comm, BitVec.testBit_toNat]

/-- The mode of a valid cell, bit by bit (R103, R108). -/
theorem mode_getLsbD {v : Index} (hmode : v.toNat / 2 ^ 59 % 8 = 1) {i : Nat} (hi : i < 3) :
    v.getLsbD (59 + i) = decide (i = 0) := by
  calc v.getLsbD (59 + i)
    _ = (v.toNat / 2 ^ 59 % 2 ^ 3).testBit i := by
      rw [Nat.testBit_mod_two_pow, Nat.testBit_div_two_pow, decide_eq_true hi, Bool.true_and, Nat.add_comm,
        BitVec.testBit_toNat]
    _ = Nat.testBit 1 i := congrArg (Nat.testBit · i) hmode
    _ = decide (i = 0) := by interval_cases i <;> rfl

/-- The bits above the resolution are those of the header and the mode once EXTRA is cleared. -/
theorem validCell_getLsbD_above {v : Index} (h : validCell v = true) {i : Nat} (hlo : 57 ≤ i) (hhi : i < 64) :
    (v.getLsbD i && !decide (i = 57 ∨ i = 58)) = decide (i = 59 ∨ i = 62) := by
  obtain ⟨hindex, hmode⟩ := (validCell_iff v).1 h
  obtain ⟨htop, hhdr, -, -, -⟩ := (validIndex_iff v).1 hindex
  have hm0 := mode_getLsbD hmode (i := 0) (by decide)
  have hm1 := mode_getLsbD hmode (i := 1) (by decide)
  have hm2 := mode_getLsbD hmode (i := 2) (by decide)
  interval_cases i
  · exact Bool.and_false _
  · exact Bool.and_false _
  all_goals simp only [Nat.reduceAdd] at hm0 hm1 hm2
  · rw [hm0]; rfl
  · rw [hm1]; rfl
  · rw [hm2]; rfl
  · rw [hhdr]; rfl
  · rw [htop]; rfl

/-- A valid cell comes back with its EXTRA bits cleared (R118). -/
theorem repack_of_validCell {v : Index} (h : validCell v = true) : repack v = v &&& ~~~extraMask := by
  have hz := resOf_le_of_validCell h
  obtain ⟨-, -, -, -, hfooter⟩ := (validIndex_iff v).1 ((validCell_iff v).1 h).1
  have hbit := packIndex_getLsbD (unpackX v) (unpackY v) hz
  apply BitVec.eq_of_getLsbD_eq
  intro i hi
  rw [clearExtra_getLsbD v hi]
  by_cases habove : 57 ≤ i
  · rw [validCell_getLsbD_above h habove hi, repack, hbit, if_neg (by omega), if_neg (by omega), if_neg (by omega)]
  · rw [decide_eq_false (by omega : ¬ (i = 57 ∨ i = 58)), Bool.not_false, Bool.and_true]
    by_cases hres : 52 ≤ i
    · rw [repack, hbit, if_neg (by omega), if_neg (by omega), if_pos (by omega), resOf_testBit v (by omega),
        Nat.add_sub_cancel' hres]
    · by_cases hpos : 52 - 2 * resOf v ≤ i
      · exact repack_getLsbD_position hz hpos (by omega)
      · rw [repack, hbit, if_pos (by omega), hfooter i (by omega)]

/-- The cells that come back unchanged are the canonical ones (R118): what PACK makes is canonical, and a
canonical cell has no EXTRA bits to lose. -/
theorem repack_eq_self_iff {v : Index} (hz : resOf v ≤ 26) : repack v = v ↔ canonicalCell v = true := by
  constructor
  · intro h
    exact h ▸ canonicalCell_packIndex (unpackX v) (unpackY v) hz
  · intro h
    obtain ⟨hcell, h58, h57⟩ := (canonicalCell_iff v).1 h
    rw [repack_of_validCell hcell, clearExtra_of_clear h57 h58]

/-- PACK of the tile UNPACK wrote writes the repacked index. -/
theorem exec_pack_of_unpack {v : Index} {u : State} (hz : resOf v ≤ 26) (hx : u.xIn = unpackX v)
    (hy : u.yIn = unpackY v) : exec (.pack (resOf v)) u = .next (complete (setRes (repack v) u)) := by
  rw [exec_pack_of_tile hz (hx ▸ unpackX_toNat_lt v) (hy ▸ unpackY_toNat_lt v), hx, hy, repack]

/-- Settles O32: UNPACK reads the tile that PACK wrote; and PACK of what UNPACK read is `repack`, where
PACK completes. -/
theorem packUnpackRoundTrip : Obligations.PackUnpackRoundTrip := by
  refine ⟨fun s z hz hx hy => ?tile, fun s t u hunpack hxu hyu => ?cell⟩
  case tile =>
    refine ⟨_, exec_pack_of_tile hz hx hy, rfl, fun u hu => ⟨_, execUnpack_eq u, rfl, ?_⟩⟩
    have hidx : u.idxIn = packIndex z s.xIn s.yIn := hu
    simp only [complete_xOut, complete_yOut, complete_fOut, setFields_xOut, setFields_yOut, setFields_fOut,
      setTile_xOut, setTile_yOut, hidx]
    exact ⟨unpackX_packIndex hz hx hy, unpackY_packIndex hz hx hy,
      (fieldsWord_mod_32 _).trans (resOf_packIndex _ _ hz)⟩
  case cell =>
    cases hunpack
    have hpack : resOf s.idxIn ≤ 26 →
        exec (.pack (resOf s.idxIn)) u = .next (complete (setRes (repack s.idxIn) u)) :=
      fun hz => exec_pack_of_unpack hz hxu hyu
    refine ⟨⟨?only, ?back⟩, fun hcell =>
      ⟨_, hpack (resOf_le_of_validCell hcell), rfl, repack_of_validCell hcell⟩⟩
    case only =>
      rintro ⟨w, hw, herr, hres⟩
      rcases exec_next_cases hw with ⟨e, rfl⟩ | ⟨⟨hz, -⟩, -⟩
      · cases herr
      · cases (hpack hz).symm.trans hw
        exact (repack_eq_self_iff hz).1 hres
    case back =>
      intro hcan
      have hz := resOf_le_of_validCell ((canonicalCell_iff _).1 hcan).1
      exact ⟨_, hpack hz, rfl, (repack_eq_self_iff hz).2 hcan⟩

end Sys2Proof.Machine
end

section
/-! PROOFS. What the header of an index decides (40_codec.md R100 to R108), and the two lanes of UNPACK as
one function of the lane (R115): the commands of 41_hierarchy.md keep the header and move the lanes. -/

namespace Sys2Proof.Machine

/-! ## Indices with the same header -/

/-- `w` has the bits of `v` above the resolution field: TOP, HDR, MODE and EXTRA. -/
def SameHeader (v w : Index) : Prop := ∀ i, 57 ≤ i → i < 64 → w.getLsbD i = v.getLsbD i

section SameHeader

variable {v w : Index} (h : SameHeader v w)
include h

theorem SameHeader.modeField_eq : modeField w = modeField v :=
  (extractLsb'_eq_iff ..).2 fun i hi => by simp [modeField, hi, h (59 + i) (by omega) (by omega)]

theorem SameHeader.extraField_eq : extraField w = extraField v :=
  (extractLsb'_eq_iff ..).2 fun i hi => by simp [extraField, hi, h (57 + i) (by omega) (by omega)]

/-- Of two indices with one header, the second is valid if the first is, once its resolution is legal and
its footer is ones (R107). -/
theorem SameHeader.keeps_validIndex (hres : resOf w ≤ 26)
    (hfooter : ∀ i, i + 2 * resOf w < 52 → w.getLsbD i = true) (hv : validIndex v = true) :
    validIndex w = true := by
  obtain ⟨htop, hhdr, hmode, -, -⟩ := (validIndex_iff v).1 hv
  rw [validIndex_iff, h 63 (by decide) (by decide), h 62 (by decide) (by decide), ← modeField_toNat,
    h.modeField_eq, modeField_toNat]
  exact ⟨htop, hhdr, hmode, hres, hfooter⟩

theorem SameHeader.keeps_validCell (hw : validIndex w = true) (hv : validCell v = true) :
    validCell w = true := by
  rw [validCell_iff, ← modeField_toNat] at hv ⊢
  rw [h.modeField_eq]
  exact ⟨hw, hv.2⟩

theorem SameHeader.keeps_canonicalCell (hw : validIndex w = true) (hv : canonicalCell v = true) :
    canonicalCell w = true := by
  obtain ⟨hcell, h58, h57⟩ := (canonicalCell_iff v).1 hv
  rw [canonicalCell_iff, h 58 (by decide) (by decide), h 57 (by decide) (by decide)]
  exact ⟨h.keeps_validCell hw hcell, h58, h57⟩

end SameHeader

/-! ## The lanes of UNPACK -/

/-- The coordinate UNPACK reads from the bits of one parity, `b` being 0 for x and 1 for y (R114). -/
def unpackLane (b : Nat) (v : Index) : Word := (compact32 (payload v >>> b) >>> (32 - resOf v)).setWidth 32

theorem unpackX_eq_unpackLane (v : Index) : unpackX v = unpackLane 0 v := by
  rw [unpackLane, BitVec.ushiftRight_zero]
  rfl

theorem unpackY_eq_unpackLane (v : Index) : unpackY v = unpackLane 1 v := rfl

/-- At a legal resolution `z` bit `j < z` of a lane is the bit of its parity in pair `j` above the footer,
and there is no other (R115). -/
theorem unpackLane_getLsbD_of_le {v : Index} {b : Nat} (hb : b ≤ 1) (hz : resOf v ≤ 26) (j : Nat) :
    (unpackLane b v).getLsbD j = (decide (j < resOf v) && v.getLsbD (2 * j + b + (52 - 2 * resOf v))) := by
  by_cases hj : j < 32
  · rw [unpackLane, unpackLane_getLsbD v hb hj]
    by_cases hjz : j < resOf v
    · rw [if_pos (by omega), decide_eq_true hjz, Bool.true_and]
      congr 1
      omega
    · rw [if_neg (by omega), decide_eq_false hjz, Bool.false_and]
  · rw [BitVec.getLsbD_of_ge _ _ (by omega), decide_eq_false (by omega), Bool.false_and]

end Sys2Proof.Machine
end

section
/-! PROOFS. PARENT (41_hierarchy.md R140 to R142): the bits of the index it writes. -/

namespace Sys2Proof.Machine

/-- The resolution is replaced, everything below the position bits of level `p` is ones, and every other
bit is kept (R141). -/
theorem parentIndex_getLsbD {p : Nat} (v : Index) (hp : p < 32) (i : Nat) :
    (parentIndex v p).getLsbD i =
      if i + 2 * p < 52 then true else if 52 ≤ i ∧ i < 57 then p.testBit (i - 52) else v.getLsbD i := by
  rw [parentIndex, BitVec.getLsbD_or, withRes_getLsbD v i hp, footer_getLsbD]
  by_cases hfooter : i + 2 * p < 52 <;> simp [hfooter]

theorem parentIndex_getLsbD_footer {p i : Nat} (v : Index) (hp : p < 32) (hi : i + 2 * p < 52) :
    (parentIndex v p).getLsbD i = true := by
  rw [parentIndex_getLsbD v hp, if_pos hi]

theorem parentIndex_getLsbD_position {p i : Nat} (v : Index) (hp : p < 32) (hlo : 52 ≤ i + 2 * p)
    (hhi : i < 52) : (parentIndex v p).getLsbD i = v.getLsbD i := by
  rw [parentIndex_getLsbD v hp, if_neg (by omega), if_neg (by omega)]

theorem sameHeader_parentIndex {p : Nat} (v : Index) (hp : p < 32) : SameHeader v (parentIndex v p) :=
  fun i _ _ => by rw [parentIndex_getLsbD v hp, if_neg (by omega), if_neg (by omega)]

theorem resOf_parentIndex {p : Nat} (v : Index) (hp : p < 32) : resOf (parentIndex v p) = p := by
  calc resOf (parentIndex v p)
    _ = resOf (withRes v p) := resOf_eq_of_resField_bits fun i _ => by
      rw [parentIndex_getLsbD v hp, withRes_getLsbD v _ hp, if_neg (by omega)]
    _ = p := resOf_withRes v hp

/-- PARENT p reads nothing of its operand below the position bits of level `p`, nor its resolution. -/
theorem parentIndex_congr {v w : Index} {p : Nat} (hp : p < 32) (hheader : SameHeader v w)
    (hposition : ∀ i, 52 ≤ i + 2 * p → i < 52 → w.getLsbD i = v.getLsbD i) :
    parentIndex w p = parentIndex v p := by
  apply BitVec.eq_of_getLsbD_eq
  intro i hi
  rw [parentIndex_getLsbD w hp, parentIndex_getLsbD v hp]
  split
  · rfl
  · split
    · rfl
    · by_cases hpos : i < 52
      · exact hposition i (by omega) hpos
      · exact hheader i (by omega) hi

/-- An index whose footer is ones is its own parent at its resolution (R142). -/
theorem parentIndex_resOf {v : Index} (hfooter : ∀ i, i + 2 * resOf v < 52 → v.getLsbD i = true) :
    parentIndex v (resOf v) = v := by
  apply BitVec.eq_of_getLsbD_eq
  intro i _
  rw [parentIndex_getLsbD v (resOf_lt v)]
  split
  · exact (hfooter i ‹_›).symm
  · split
    · rw [resOf_testBit v (by omega), Nat.add_sub_cancel' (by omega)]
    · rfl

/-- The parent of a parent is the parent (R142). -/
theorem parentIndex_parentIndex {p q : Nat} (v : Index) (hpq : p ≤ q) (hq : q < 32) :
    parentIndex (parentIndex v q) p = parentIndex v p :=
  parentIndex_congr (by omega) (sameHeader_parentIndex v hq) fun _ _ hhi =>
    parentIndex_getLsbD_position v hq (by omega) hhi

theorem validIndex_parentIndex {v : Index} {p : Nat} (hp : p ≤ 26) (hv : validIndex v = true) :
    validIndex (parentIndex v p) = true := by
  have hres := resOf_parentIndex v (by omega : p < 32)
  refine (sameHeader_parentIndex v (by omega)).keeps_validIndex (by omega) (fun i hi => ?_) hv
  exact parentIndex_getLsbD_footer v (by omega) (hres ▸ hi)

theorem validCell_parentIndex {v : Index} {p : Nat} (hp : p ≤ 26) (hv : validCell v = true) :
    validCell (parentIndex v p) = true :=
  (sameHeader_parentIndex v (by omega)).keeps_validCell
    (validIndex_parentIndex hp ((validCell_iff v).1 hv).1) hv

theorem canonicalCell_parentIndex {v : Index} {p : Nat} (hp : p ≤ 26) (hv : canonicalCell v = true) :
    canonicalCell (parentIndex v p) = true :=
  (sameHeader_parentIndex v (by omega)).keeps_canonicalCell
    (validIndex_parentIndex hp ((validCell_iff v).1 ((canonicalCell_iff v).1 hv).1).1) hv

/-- The parent's coordinates are those of the index without the bits of the lost levels (R141). -/
theorem unpackLane_parentIndex {v : Index} {b p : Nat} (hb : b ≤ 1) (hz : resOf v ≤ 26) (hp : p ≤ resOf v) :
    unpackLane b (parentIndex v p) = unpackLane b v >>> (resOf v - p) := by
  have hres := resOf_parentIndex v (by omega : p < 32)
  apply BitVec.eq_of_getLsbD_eq
  intro j _
  rw [BitVec.getLsbD_ushiftRight, unpackLane_getLsbD_of_le hb (by omega), hres, unpackLane_getLsbD_of_le hb hz]
  by_cases hj : j < p
  · rw [decide_eq_true hj, decide_eq_true (by omega), Bool.true_and, Bool.true_and,
      parentIndex_getLsbD_position v (by omega) (by omega) (by omega)]
    congr 1
    omega
  · rw [decide_eq_false hj, decide_eq_false (by omega), Bool.false_and, Bool.false_and]

/-! ## The command -/

/-- Settles O37: the guard of PARENT fails. -/
theorem parentRefusals : Obligations.ParentRefusals := fun _ _ hp => execParent_of_bad_res hp

/-- Settles O36: PARENT writes `parentIndex`, whose bits and lanes are known. -/
theorem parentClosedForm : Obligations.ParentClosedForm := by
  intro s p hmax hres
  have hp : p < 32 := by omega
  refine ⟨_, execParent_of_le hmax hres, rfl, fun i hlo hhi => ?header, ?resolution, fun i hlo hhi => ?position,
    fun i hi => ?footer, fun hcell => ?tile⟩
  case header => exact sameHeader_parentIndex s.idxIn hp i hlo (by omega)
  case resolution => exact (resOf_eq _).symm.trans (resOf_parentIndex s.idxIn hp)
  case position => exact parentIndex_getLsbD_position s.idxIn hp (by omega) (by omega)
  case footer => exact parentIndex_getLsbD_footer s.idxIn hp (by omega)
  case tile =>
    have hz := resOf_le_of_validCell hcell
    rw [unpackX_eq_unpackLane, unpackX_eq_unpackLane, unpackY_eq_unpackLane, unpackY_eq_unpackLane]
    exact ⟨validCell_parentIndex hmax hcell, (sameHeader_parentIndex s.idxIn hp).extraField_eq,
      unpackLane_parentIndex (by decide) hz hres, unpackLane_parentIndex (by decide) hz hres⟩

/-- Settles O38: the laws of `parentIndex`, where PARENT completes. -/
theorem parentLaws : Obligations.ParentLaws := by
  refine ⟨fun s hv => ?idempotent, fun s u p q hv hpq hq => ?composes, fun s t p h herr => ?classes⟩
  case idempotent =>
    obtain ⟨-, -, -, hz, hfooter⟩ := (validIndex_iff s.idxIn).1 hv
    exact ⟨_, execParent_of_le hz le_rfl, rfl, parentIndex_resOf hfooter⟩
  case composes =>
    obtain ⟨-, -, -, hz, -⟩ := (validIndex_iff s.idxIn).1 hv
    have hq26 : q ≤ 26 := hq.trans hz
    have hp26 : p ≤ 26 := hpq.trans hq26
    refine ⟨_, execParent_of_le hq26 hq, rfl, fun hu => ?_⟩
    have hu : u.idxIn = parentIndex s.idxIn q := hu
    have hpu : p ≤ resOf u.idxIn := by rwa [hu, resOf_parentIndex s.idxIn (by omega)]
    refine ⟨_, _, execParent_of_le hp26 hpu, execParent_of_le hp26 (hpq.trans hq), rfl, rfl, ?_⟩
    show parentIndex u.idxIn p = parentIndex s.idxIn p
    rw [hu, parentIndex_parentIndex s.idxIn hpq (by omega)]
  case classes =>
    rcases exec_next_cases h with ⟨e, rfl⟩ | ⟨⟨hmax, -⟩, rfl⟩
    · cases herr
    · have hp : p ≤ 26 := hmax
      exact ⟨fun hv => ⟨validIndex_parentIndex hp hv, resOf_parentIndex s.idxIn (by omega)⟩,
        validCell_parentIndex hp, canonicalCell_parentIndex hp⟩

end Sys2Proof.Machine
end

section
/-! PROOFS. CHILDREN and NEXTCHILD (41_hierarchy.md R143 to R145): the bits of child number `k`, its tile,
and the order of the children. -/

namespace Sys2Proof.Machine

/-! ## The child base and one child -/

/-- Outside the resolution field and the child bits the base is the operand (R143). -/
theorem childBase_getLsbD_kept {c i : Nat} (v : Index) (hc : c ≤ 26) (hi : i < 64)
    (hkept : i < 52 - 2 * c ∨ (52 - 2 * resOf v ≤ i ∧ i < 52) ∨ 57 ≤ i) :
    (childBase v c).getLsbD i = v.getLsbD i := by
  have hmiss : ¬ (childShift c ≤ i ∧ i < childShift c + 2 * (c - resOf v)) := by
    rw [childShift]
    omega
  rw [childBase_getLsbD v i hc hi, decide_eq_false hmiss, Bool.not_false, Bool.and_true,
    withRes_getLsbD v i (by omega), if_neg (by omega)]

/-- The child bits of a base lie between the position bits of the two levels. -/
theorem childBase_getLsbD_clear {c i : Nat} (v : Index) (hc : c ≤ 26) (hlo : 52 - 2 * c ≤ i)
    (hhi : i < 52 - 2 * resOf v) : (childBase v c).getLsbD i = false :=
  childBase_child_bits_clear v hc hlo (by rw [childShift]; omega)

theorem childAt_getLsbD {base : Index} (k : Index) {i : Nat} (hbase : resOf base ≤ 26) (hi : i < 64) :
    (childAt base k).getLsbD i =
      (base.getLsbD i || (decide (52 ≤ i + 2 * resOf base) && k.getLsbD (i + 2 * resOf base - 52))) := by
  rw [childAt, BitVec.getLsbD_or, BitVec.getLsbD_shiftLeft, childShift, decide_eq_true hi, Bool.true_and,
    ← decide_not]
  congr 2
  · exact decide_eq_decide.2 (by omega)
  · congr 1
    omega

/-- Child number `k` at resolution `c` of the index CHILDREN read (R144). -/
def childOf (v : Index) (c : Nat) (k : Index) : Index := childAt (childBase v c) k

theorem childOf_eq {c : Nat} (v k : Index) (hc : c ≤ 26) :
    childOf v c k = childBase v c ||| k <<< (52 - 2 * c) := by
  rw [childOf, childAt, resOf_childBase v hc, childShift]

theorem childOf_getLsbD {c i : Nat} (v k : Index) (hc : c ≤ 26) (hi : i < 64) :
    (childOf v c k).getLsbD i =
      ((childBase v c).getLsbD i || (decide (52 ≤ i + 2 * c) && k.getLsbD (i + 2 * c - 52))) := by
  have hres := resOf_childBase v hc
  rw [childOf, childAt_getLsbD k (by omega) hi, hres]

section Child

variable {v k : Index} {c : Nat} (hc : c ≤ 26) (hres : resOf v < c) (hk : k.toNat < 4 ^ (c - resOf v))

include hc in
/-- The child bits of child `k` hold `k`. -/
theorem childOf_getLsbD_number {i : Nat} (hlo : 52 - 2 * c ≤ i) (hhi : i < 52 - 2 * resOf v) :
    (childOf v c k).getLsbD i = k.getLsbD (i + 2 * c - 52) := by
  rw [childOf_getLsbD v k hc (by omega), childBase_getLsbD_clear v hc hlo hhi, decide_eq_true (by omega),
    Bool.false_or, Bool.true_and]

include hk

theorem childNumber_getLsbD_high {i : Nat} (hi : 2 * (c - resOf v) ≤ i) : k.getLsbD i = false :=
  getLsbD_eq_false_of_toNat_lt (by rwa [Nat.pow_mul]) hi

/-- The bits of one parity of a child number lie below the new levels (R112, R144). -/
theorem compact32_childNumber_lt (b : Nat) : (compact32 (k >>> b)).toNat < 2 ^ (c - resOf v) := by
  refine Nat.lt_pow_two_of_testBit _ fun j hj => ?_
  rw [BitVec.testBit_toNat, compact32_getLsbD, BitVec.getLsbD_ushiftRight,
    childNumber_getLsbD_high hk (by omega), Bool.and_false]

include hc hres

/-- The other bits of child `k` are those of the base. -/
theorem childOf_getLsbD_base {i : Nat} (hi : i < 64) (hout : i < 52 - 2 * c ∨ 52 - 2 * resOf v ≤ i) :
    (childOf v c k).getLsbD i = (childBase v c).getLsbD i := by
  rw [childOf_getLsbD v k hc hi]
  rcases hout with hbelow | habove
  · rw [decide_eq_false (by omega), Bool.false_and, Bool.or_false]
  · rw [childNumber_getLsbD_high hk (by omega), Bool.and_false, Bool.or_false]

theorem childOf_getLsbD_kept {i : Nat} (hi : i < 64)
    (hkept : i < 52 - 2 * c ∨ (52 - 2 * resOf v ≤ i ∧ i < 52) ∨ 57 ≤ i) :
    (childOf v c k).getLsbD i = v.getLsbD i :=
  (childOf_getLsbD_base hc hres hk hi (by omega)).trans (childBase_getLsbD_kept v hc hi hkept)

theorem resOf_childOf : resOf (childOf v c k) = c := by
  calc resOf (childOf v c k)
    _ = resOf (childBase v c) := resOf_eq_of_resField_bits fun i _ =>
      childOf_getLsbD_base hc hres hk (by omega) (by omega)
    _ = c := resOf_childBase v hc

theorem sameHeader_childOf : SameHeader v (childOf v c k) := fun _ hlo hi =>
  childOf_getLsbD_kept hc hres hk hi (.inr (.inr hlo))

/-- A child of a valid cell is a valid cell (R144): its footer is part of the operand's. -/
theorem validCell_childOf (hcell : validCell v = true) : validCell (childOf v c k) = true := by
  have hindex := ((validCell_iff v).1 hcell).1
  obtain ⟨-, -, -, -, hfooter⟩ := (validIndex_iff v).1 hindex
  have hchild := resOf_childOf hc hres hk
  have hheader := sameHeader_childOf hc hres hk
  refine hheader.keeps_validCell (hheader.keeps_validIndex (by omega) (fun i hi => ?_) hindex) hcell
  rw [childOf_getLsbD_kept hc hres hk (by omega) (by omega), hfooter i (by omega)]

/-- PARENT of a child gives the operand back, where its footer is ones (R146). -/
theorem parentIndex_childOf (hfooter : ∀ i, i + 2 * resOf v < 52 → v.getLsbD i = true) :
    parentIndex (childOf v c k) (resOf v) = v := by
  rw [parentIndex_congr (resOf_lt v) (sameHeader_childOf hc hres hk) fun _ hlo hhi =>
    childOf_getLsbD_kept hc hres hk (by omega) (by omega), parentIndex_resOf hfooter]

/-- Each coordinate of a child is the operand's, extended by the bits of its parity in `k` (R144). -/
theorem unpackLane_childOf {b : Nat} (hb : b ≤ 1) :
    (unpackLane b (childOf v c k)).toNat =
      (unpackLane b v).toNat * 2 ^ (c - resOf v) + (compact32 (k >>> b)).toNat := by
  have hchild := resOf_childOf hc hres hk
  apply Nat.eq_of_testBit_eq
  intro j
  rw [Nat.mul_comm, Nat.testBit_two_pow_mul_add _ (compact32_childNumber_lt hk b), BitVec.testBit_toNat,
    BitVec.testBit_toNat, BitVec.testBit_toNat, unpackLane_getLsbD_of_le hb (by omega), hchild,
    unpackLane_getLsbD_of_le hb (by omega), compact32_getLsbD, BitVec.getLsbD_ushiftRight]
  by_cases hj : j < c - resOf v
  · rw [if_pos hj, decide_eq_true (by omega : j < c), decide_eq_true (by omega : j < 32), Bool.true_and,
      Bool.true_and, childOf_getLsbD_number hc (by omega) (by omega)]
    congr 1
    omega
  · rw [if_neg hj]
    by_cases hjc : j < c
    · rw [decide_eq_true hjc, decide_eq_true (by omega), Bool.true_and, Bool.true_and,
        childOf_getLsbD_kept hc hres hk (by omega) (by omega)]
      congr 1
      omega
    · rw [decide_eq_false hjc, decide_eq_false (by omega), Bool.false_and, Bool.false_and]

/-- As numbers the children stand `2 ^ (52 - 2 * c)` apart. -/
theorem childOf_toNat : (childOf v c k).toNat = (childBase v c).toNat + k.toNat * 2 ^ (52 - 2 * c) := by
  have hdisjoint : childBase v c &&& k <<< (52 - 2 * c) = 0#64 := by
    apply BitVec.eq_of_getLsbD_eq
    intro i hi
    rw [BitVec.getLsbD_and, BitVec.getLsbD_shiftLeft, BitVec.getLsbD_zero]
    by_cases hlo : i < 52 - 2 * c
    · rw [decide_eq_true hlo, Bool.not_true, Bool.and_false, Bool.false_and, Bool.and_false]
    · by_cases hhi : i < 52 - 2 * resOf v
      · rw [childBase_getLsbD_clear v hc (Nat.le_of_not_lt hlo) hhi, Bool.false_and]
      · rw [childNumber_getLsbD_high hk (by omega), Bool.and_false, Bool.and_false]
  have hfits : k.toNat * 2 ^ (52 - 2 * c) < 2 ^ 64 := by
    calc k.toNat * 2 ^ (52 - 2 * c)
      _ < 2 ^ (2 * (c - resOf v)) * 2 ^ (52 - 2 * c) :=
        Nat.mul_lt_mul_of_pos_right (by rwa [Nat.pow_mul]) (by positivity)
      _ = 2 ^ (2 * (c - resOf v) + (52 - 2 * c)) := (Nat.pow_add ..).symm
      _ ≤ 2 ^ 64 := Nat.pow_le_pow_right (by decide) (by omega)
  rw [childOf_eq v k hc, ← BitVec.add_eq_or_of_and_eq_zero _ _ hdisjoint,
    BitVec.toNat_add_of_and_eq_zero hdisjoint, BitVec.toNat_shiftLeft, Nat.shiftLeft_eq, Nat.mod_eq_of_lt hfits]

theorem childOf_strictMono {j : Index} (hjk : j.toNat < k.toNat) :
    (childOf v c j).toNat < (childOf v c k).toNat := by
  rw [childOf_toNat hc hres (hjk.trans hk), childOf_toNat hc hres hk]
  exact Nat.add_lt_add_left (Nat.mul_lt_mul_of_pos_right hjk (by positivity)) _

end Child

/-! ## CHILDREN -/

/-- Settles O40: the guard of CHILDREN fails. -/
theorem childrenRefusalKeepsIterator : Obligations.ChildrenRefusalKeepsIterator := fun _ _ hc =>
  execChildren_of_bad_res hc

/-- Settles O39: CHILDREN arms the iterator with `childBase` and `childCount`, whose bits are known. -/
theorem childrenArmsTheIterator : Obligations.ChildrenArmsTheIterator := by
  intro s c hmax hres
  refine ⟨_, execChildren_of_lt hmax hres, rfl, childCount_toNat (by omega),
    (resOf_eq _).symm.trans (resOf_childBase s.idxIn hmax), fun i _ _ => ?header, fun i _ _ => ?position,
    fun i hlo hhi => childBase_getLsbD_clear s.idxIn hmax hlo hhi, fun i _ => ?footer⟩
  all_goals exact childBase_getLsbD_kept s.idxIn hmax (by omega) (by omega)

/-- The state CHILDREN left, where it reported no error. -/
theorem exec_children_completed {s t : State} {c : Nat} (h : exec (.children c) s = .next t)
    (herr : t.err = false) :
    c ≤ 26 ∧ resOf s.idxIn < c ∧ t.cha = true ∧ t.chBase = childBase s.idxIn c ∧ t.chK = 0#64
      ∧ t.chN.toNat = 4 ^ (c - resOf s.idxIn) := by
  rcases exec_next_cases h with ⟨e, rfl⟩ | ⟨⟨hmax, hres⟩, rfl⟩
  · cases herr
  · have hc : c ≤ 26 := hmax
    exact ⟨hc, hres, rfl, rfl, rfl, childCount_toNat (by omega)⟩

/-! ## NEXTCHILD -/

/-- Settles O42: the guard of NEXTCHILD fails. -/
theorem nextchildWithoutIteration : Obligations.NextchildWithoutIteration := fun _ hcha =>
  execNextchild_of_inactive hcha

/-- NEXTCHILD of an active iterator as a record (R145). -/
theorem exec_nextchild_eq {s : State} (hcha : s.cha = true) :
    exec .nextchild s = .next { s with
      res := childAt s.chBase s.chK, chK := s.chK + 1#64, cha := if s.chK + 1#64 = s.chN then false else true,
      err := false, ecode := 0#4 } := by
  rw [← hcha]
  exact execNextchild_of_active hcha

/-- Settles O41: NEXTCHILD writes `childAt` of the iterator and advances it. -/
theorem nextchildHandsOutTheChild : Obligations.NextchildHandsOutTheChild := fun s hcha =>
  ⟨_, exec_nextchild_eq hcha, rfl, fun hbase _ hi => childAt_getLsbD s.chK hbase hi⟩

/-- Settles O43: what NEXTCHILD hands out after CHILDREN is `childOf`, whose tile and order are known. -/
theorem childTileFormula : Obligations.ChildTileFormula := by
  intro s t c h herr
  obtain ⟨hc, hres, hcha, hbase, -, -⟩ := exec_children_completed h herr
  refine ⟨fun k hk => ⟨_, exec_nextchild_eq hcha, rfl, ?child, fun hcell => ?tile⟩, fun j k hjk hk => ?order⟩
  case child => rw [hbase, ← childOf_eq s.idxIn k hc, childOf]
  case tile =>
    simp only [unpackX_eq_unpackLane, unpackY_eq_unpackLane, hbase]
    rw [← childOf]
    exact ⟨validCell_childOf hc hres hk hcell, resOf_childOf hc hres hk,
      unpackLane_childOf hc hres hk (b := 0) (by decide), unpackLane_childOf hc hres hk (b := 1) (by decide)⟩
  case order =>
    rw [hbase, ← childOf_eq s.idxIn j hc, ← childOf_eq s.idxIn k hc]
    exact childOf_strictMono hc hres hk hjk

end Sys2Proof.Machine
end

section
/-! PROOFS. The enumeration of the children (41_hierarchy.md R146): the state after any number of
NEXTCHILD commands that follow CHILDREN directly. -/

namespace Sys2Proof.Machine

/-! ## Repeated commands -/

theorem execRepeat_one (i : Instr) (s : State) : execRepeat i 1 s = exec i s := by
  obtain ⟨u, hu⟩ := exec_answers_next i s
  rw [execRepeat_succ 0 hu, hu]
  rfl

theorem execRepeat_succ_last {i : Instr} {n : Nat} {s t : State} (h : execRepeat i n s = .next t) :
    execRepeat i (n + 1) s = exec i t := by
  induction n generalizing s with
  | zero =>
    cases h
    exact execRepeat_one i _
  | succ n ih =>
    obtain ⟨u, hu⟩ := exec_answers_next i s
    rw [execRepeat_succ _ hu] at h ⊢
    exact ih h

/-! ## The state after each child -/

/-- The state of an iteration that has just handed out child `k`: it is over when `k` was the last. -/
def handedOut (k : Nat) (t : State) : State :=
  { t with
    res := childAt t.chBase (BitVec.ofNat 64 k), chK := BitVec.ofNat 64 (k + 1),
    cha := if k + 1 = t.chN.toNat then false else true, err := false, ecode := 0#4 }

theorem exec_nextchild_at {s : State} {k : Nat} (hcha : s.cha = true) (hk : s.chK = BitVec.ofNat 64 k)
    (hlt : k < s.chN.toNat) : exec .nextchild s = .next (handedOut k s) := by
  have hnext : BitVec.ofNat 64 k + 1#64 = BitVec.ofNat 64 (k + 1) := (BitVec.ofNat_add _ _).symm
  have hlast : BitVec.ofNat 64 (k + 1) = s.chN ↔ k + 1 = s.chN.toNat := by
    have hmod : (k + 1) % 2 ^ 64 = k + 1 := Nat.mod_eq_of_lt (lt_of_le_of_lt hlt s.chN.isLt)
    rw [← BitVec.toNat_inj, BitVec.toNat_ofNat, hmod]
  simp only [exec_nextchild_eq hcha, hk, hnext, hlast, handedOut]

/-- NEXTCHILD `k + 1` times from the armed iterator hands out child `k` last. -/
theorem execRepeat_nextchild {t : State} {k : Nat} (hcha : t.cha = true) (hzero : t.chK = 0#64)
    (hlt : k < t.chN.toNat) : execRepeat .nextchild (k + 1) t = .next (handedOut k t) := by
  induction k with
  | zero => rw [execRepeat_one, exec_nextchild_at hcha hzero hlt]
  | succ k ih =>
    have hgoes : (handedOut k t).cha = true := if_neg (by omega)
    rw [execRepeat_succ_last (ih (by omega)), exec_nextchild_at hgoes rfl hlt]
    rfl

/-- After the last child the iterator is inactive and has counted to the end (R146). -/
theorem handedOut_last {t : State} {k : Nat} (hlast : k + 1 = t.chN.toNat) :
    (handedOut k t).cha = false ∧ (handedOut k t).chK = (handedOut k t).chN := by
  refine ⟨if_pos hlast, ?_⟩
  show BitVec.ofNat 64 (k + 1) = t.chN
  rw [hlast, BitVec.ofNat_toNat, BitVec.setWidth_eq]

/-! ## The children of one index -/

/-- After CHILDREN c, child `k` is in RES when `k + 1` commands have followed. -/
theorem execRepeat_nextchild_children {s t : State} {c k : Nat} (h : exec (.children c) s = .next t)
    (herr : t.err = false) (hk : k < 4 ^ (c - resOf s.idxIn)) :
    execRepeat .nextchild (k + 1) t = .next (handedOut k t)
      ∧ (handedOut k t).res = childOf s.idxIn c (BitVec.ofNat 64 k)
      ∧ (BitVec.ofNat 64 k).toNat = k := by
  obtain ⟨-, -, hcha, hbase, hzero, hcount⟩ := exec_children_completed h herr
  refine ⟨execRepeat_nextchild hcha hzero (hcount ▸ hk), ?res, ?number⟩
  case res => rw [handedOut, hbase, childOf]
  case number =>
    rw [BitVec.toNat_ofNat]
    exact Nat.mod_eq_of_lt (hk.trans (hcount ▸ t.chN.isLt))

/-- Settles O44: the commands hand out `childOf` of 0, 1, 2 and so on, so the laws of one child are those
of the enumeration; the last one ends the iteration. -/
theorem enumerationLaws : Obligations.EnumerationLaws := by
  intro s t c hc hres h
  have herr : t.err = false := by
    cases (execChildren_of_lt hc hres).symm.trans h
    rfl
  obtain ⟨-, -, -, -, -, hcount⟩ := exec_children_completed h herr
  refine ⟨fun k hk => ?child, fun j k u w hjk hk hu hw => ?rising, ?finished⟩
  case child =>
    obtain ⟨hrun, hout, hnumber⟩ := execRepeat_nextchild_children h herr hk
    have hk' : (BitVec.ofNat 64 k).toNat < 4 ^ (c - resOf s.idxIn) := hnumber.symm ▸ hk
    refine ⟨_, hrun, rfl, fun hfooter w hw => ?parent, fun hcell => ?cell⟩
    case parent =>
      have hidx : w.idxIn = childOf s.idxIn c (BitVec.ofNat 64 k) := hw.trans hout
      have hle : resOf s.idxIn ≤ resOf w.idxIn := by
        rw [hidx, resOf_childOf hc hres hk']
        exact hres.le
      refine ⟨_, execParent_of_le (hres.le.trans hc) hle, rfl, ?_⟩
      show parentIndex w.idxIn (resOf s.idxIn) = s.idxIn
      rw [hidx, parentIndex_childOf hc hres hk' hfooter]
    case cell =>
      rw [hout]
      exact ⟨validCell_childOf hc hres hk' hcell, resOf_childOf hc hres hk'⟩
  case rising =>
    obtain ⟨hrunj, houtj, hnumberj⟩ := execRepeat_nextchild_children h herr (hjk.trans hk)
    obtain ⟨hrunk, houtk, hnumberk⟩ := execRepeat_nextchild_children h herr hk
    cases hrunj.symm.trans hu
    cases hrunk.symm.trans hw
    rw [houtj, houtk]
    exact childOf_strictMono hc hres (hnumberk.symm ▸ hk) (by rwa [hnumberj, hnumberk])
  case finished =>
    obtain ⟨k, hk⟩ := Nat.exists_eq_add_of_le' (Nat.one_le_pow (c - resOf s.idxIn) 4 (by decide))
    have hlt : k < 4 ^ (c - resOf s.idxIn) := by omega
    obtain ⟨hrun, -, -⟩ := execRepeat_nextchild_children h herr hlt
    obtain ⟨hover, hend⟩ := handedOut_last (hk.symm.trans hcount.symm)
    exact ⟨_, hk ▸ hrun, hover, hend, hcount, execNextchild_of_inactive hover⟩

end Sys2Proof.Machine
end

section
/-! PROOFS. MENC and MDEC (42_morton.md R170 to R174): the code of two words and the two words of a code
invert each other, bit by bit; PACK and UNPACK are the same codes at the top of the lanes. -/

namespace Sys2Proof.Machine

/-! ## The code of two words and the words of a code -/

/-- The depth-32 Morton code of two words (R171). -/
def mencCode (x y : Word) : Index := interleave (x.setWidth 64) (y.setWidth 64)

/-- The word of a code in the bits of one parity, `b` being 0 for x and 1 for y (R173). -/
def mdecLane (b : Nat) (v : Index) : Word := (compact32 (v >>> b)).setWidth 32

theorem exec_menc (s : State) : exec .menc s = .next (complete (setRes (mencCode s.xIn s.yIn) s)) :=
  execMenc_eq s

theorem exec_mdec (s : State) :
    exec .mdec s = .next (complete (setTile (mdecLane 0 s.idxIn) (mdecLane 1 s.idxIn) s)) := by
  rw [mdecLane, BitVec.ushiftRight_zero]
  exact execMdec_eq s

theorem setWidth_64_toNat_lt (x : Word) : (x.setWidth 64).toNat < 2 ^ 32 := by
  rw [BitVec.toNat_setWidth_of_le (by decide)]
  exact x.isLt

theorem setWidth_64_getLsbD (x : Word) (i : Nat) : (x.setWidth 64).getLsbD i = x.getLsbD i := by
  by_cases hi : i < 64
  · rw [BitVec.getLsbD_setWidth, decide_eq_true hi, Bool.true_and]
  · rw [BitVec.getLsbD_of_ge _ _ (by omega), BitVec.getLsbD_of_ge _ _ (by omega)]

theorem mencCode_getLsbD_even (x y : Word) (i : Nat) : (mencCode x y).getLsbD (2 * i) = x.getLsbD i := by
  rw [mencCode, interleave_getLsbD_even (setWidth_64_toNat_lt x) (setWidth_64_toNat_lt y), setWidth_64_getLsbD]

theorem mencCode_getLsbD_odd (x y : Word) (i : Nat) : (mencCode x y).getLsbD (2 * i + 1) = y.getLsbD i := by
  rw [mencCode, interleave_getLsbD_odd (setWidth_64_toNat_lt x) (setWidth_64_toNat_lt y), setWidth_64_getLsbD]

theorem mdecLane_getLsbD (b : Nat) (v : Index) {i : Nat} (hi : i < 32) :
    (mdecLane b v).getLsbD i = v.getLsbD (2 * i + b) := by
  rw [mdecLane, BitVec.getLsbD_setWidth, compact32_getLsbD, BitVec.getLsbD_ushiftRight, decide_eq_true hi,
    Bool.true_and, Bool.true_and, Nat.add_comm]

/-! ## Each inverts the other -/

theorem mdecLane_zero_mencCode (x y : Word) : mdecLane 0 (mencCode x y) = x := by
  apply BitVec.eq_of_getLsbD_eq
  intro i hi
  rw [mdecLane_getLsbD 0 _ hi, Nat.add_zero, mencCode_getLsbD_even]

theorem mdecLane_one_mencCode (x y : Word) : mdecLane 1 (mencCode x y) = y := by
  apply BitVec.eq_of_getLsbD_eq
  intro i hi
  rw [mdecLane_getLsbD 1 _ hi, mencCode_getLsbD_odd]

theorem mencCode_mdecLane (v : Index) : mencCode (mdecLane 0 v) (mdecLane 1 v) = v := by
  apply BitVec.eq_of_getLsbD_eq
  intro i hi
  obtain ⟨k, rfl | rfl⟩ := Nat.even_or_odd' i
  · rw [mencCode_getLsbD_even, mdecLane_getLsbD 0 v (by omega), Nat.add_zero]
  · rw [mencCode_getLsbD_odd, mdecLane_getLsbD 1 v (by omega)]

/-- A code has one pair of words, those MDEC gives (R172). -/
theorem mencCode_eq_iff (x y : Word) (v : Index) :
    mencCode x y = v ↔ (x, y) = (mdecLane 0 v, mdecLane 1 v) := by
  constructor
  · rintro rfl
    rw [mdecLane_zero_mencCode, mdecLane_one_mencCode]
  · intro h
    cases h
    exact mencCode_mdecLane v

/-! ## PACK and UNPACK at the top of the lanes -/

/-- A coordinate below `2^z` loses no bit when its word is shifted by `32 − z` (R172). -/
theorem setWidth_shiftLeft_eq_alignLane {z : Nat} {x : Word} (hz : z ≤ 32) (hx : x.toNat < 2 ^ z) :
    (x <<< (32 - z)).setWidth 64 = alignLane z x := by
  apply BitVec.eq_of_getLsbD_eq
  intro i hi
  rw [setWidth_64_getLsbD, BitVec.getLsbD_shiftLeft]
  by_cases hlane : i < 32
  · rw [alignLane, BitVec.getLsbD_shiftLeft, setWidth_64_getLsbD, decide_eq_true hlane, decide_eq_true hi]
  · rw [decide_eq_false hlane, Bool.false_and, Bool.false_and,
      getLsbD_eq_false_of_toNat_lt (alignLane_toNat_lt hz hx) (Nat.le_of_not_lt hlane)]

theorem mencCode_shiftLeft {z : Nat} {x y : Word} (hz : z ≤ 32) (hx : x.toNat < 2 ^ z) (hy : y.toNat < 2 ^ z) :
    mencCode (x <<< (32 - z)) (y <<< (32 - z)) = tileCode z x y := by
  rw [mencCode, setWidth_shiftLeft_eq_alignLane hz hx, setWidth_shiftLeft_eq_alignLane hz hy, tileCode]

/-- UNPACK shifts the 64-bit lane and cuts it to a word; the lane fits the word, so MDEC may cut it
first (R174). -/
theorem unpackLane_eq_mdecLane (b : Nat) (v : Index) :
    unpackLane b v = mdecLane b (payload v) >>> (32 - resOf v) := by
  apply BitVec.eq_of_getLsbD_eq
  intro j hj
  rw [unpackLane, mdecLane, BitVec.getLsbD_setWidth, BitVec.getLsbD_ushiftRight, BitVec.getLsbD_ushiftRight,
    BitVec.getLsbD_setWidth, decide_eq_true hj, Bool.true_and, compact32_getLsbD, ← Bool.and_assoc,
    Bool.and_self]

/-! ## The commands -/

/-- Settles O46: the words of a code are its even and its odd bits; and the code in the RES of PACK is that
of the lanes shifted as words. -/
theorem mencLaw : Obligations.MencLaw := by
  refine ⟨fun s => ⟨_, exec_menc s, rfl, fun i _ =>
    ⟨mencCode_getLsbD_even s.xIn s.yIn i, mencCode_getLsbD_odd s.xIn s.yIn i⟩⟩, fun v => ?bijection,
    fun s t u w z hz hx hy hux huy hpack hmenc => ?pack⟩
  case bijection =>
    refine ⟨(mdecLane 0 v, mdecLane 1 v), fun s hx hy => ⟨_, exec_menc s, ?_⟩, fun ⟨x, y⟩ hxy => ?_⟩
    · exact (mencCode_eq_iff s.xIn s.yIn v).2 (Prod.ext hx hy)
    · obtain ⟨t, hmenc, hres⟩ := hxy { State.reset with xIn := x, yIn := y } rfl rfl
      cases (exec_menc _).symm.trans hmenc
      exact (mencCode_eq_iff x y v).1 hres
  case pack =>
    cases (exec_pack_of_tile hz hx hy).symm.trans hpack
    cases (exec_menc u).symm.trans hmenc
    have hcode : mencCode u.xIn u.yIn = tileCode z s.xIn s.yIn := by
      rw [hux, huy, mencCode_shiftLeft (by omega) hx hy]
    simp only [complete_res, setRes_res, hcode]
    rfl

/-- Settles O47: the code of two words and the words of a code invert each other; and each coordinate of
UNPACK is a word of the payload, shifted. -/
theorem mdecLaw : Obligations.MdecLaw := by
  refine ⟨fun s => ⟨_, exec_mdec s, rfl, fun i hi =>
    ⟨mdecLane_getLsbD 0 s.idxIn hi, mdecLane_getLsbD 1 s.idxIn hi⟩⟩, fun s t u hmenc hidx => ?menc,
    fun s t u hmdec hx hy => ?mdec, fun s t u w hunpack hidx hmdec => ?unpack⟩
  case menc =>
    cases (exec_menc s).symm.trans hmenc
    have hcode : u.idxIn = mencCode s.xIn s.yIn := hidx
    refine ⟨_, exec_mdec u, ?_⟩
    simp only [complete_xOut, complete_yOut, setTile_xOut, setTile_yOut, hcode]
    exact ⟨mdecLane_zero_mencCode _ _, mdecLane_one_mencCode _ _⟩
  case mdec =>
    cases (exec_mdec s).symm.trans hmdec
    exact ⟨_, exec_menc u, (mencCode_eq_iff u.xIn u.yIn s.idxIn).2 (Prod.ext hx hy)⟩
  case unpack =>
    cases hunpack
    cases (exec_mdec u).symm.trans hmdec
    have hpayload : u.idxIn = payload s.idxIn := hidx
    simp only [complete_xOut, complete_yOut, setFields_xOut, setFields_yOut, setTile_xOut, setTile_yOut, hpayload,
      unpackX_eq_unpackLane, unpackY_eq_unpackLane]
    exact ⟨unpackLane_eq_mdecLane 0 _, unpackLane_eq_mdecLane 1 _⟩

end Sys2Proof.Machine
end

section
/-! PROOFS. NOP: the command that writes nothing before it completes (43_control.md R181). -/

namespace Sys2Proof.Machine

theorem exec_nop (s : State) : exec .nop s = .next (complete s) := execNop_eq s

/-- Settles O26: NOP only completes, and completing clears ERR and ECODE and keeps every other register. -/
theorem nopClearsErrOnly : Obligations.NopClearsErrOnly := by
  intro s
  rw [exec_nop, complete_eq]

end Sys2Proof.Machine
end

section
/-! PROOFS. The errors a decoded command reports (60_exceptions.md R200, R201): IllegalCommand is the
decoder's and never theirs. -/

namespace Sys2Proof.Machine

/-- Each refusal names its error in the command's own cases; a completed command leaves the code 0. -/
theorem exec_ecode_ne_illegalCommand {i : Instr} {s t : State} (h : exec i s = .next t) :
    t.ecode ≠ errorCode .illegalCommand := by
  cases i with
  | pack z =>
    rcases execPack_cases z s with ⟨-, e⟩ | ⟨-, -, e⟩ | ⟨-, -, e⟩ <;> cases e.symm.trans h <;> simp [errorCode]
  | parent p => rcases execParent_cases p s with ⟨-, e⟩ | ⟨-, -, e⟩ <;> cases e.symm.trans h <;> simp [errorCode]
  | children c => rcases execChildren_cases c s with ⟨-, e⟩ | ⟨-, -, e⟩ <;> cases e.symm.trans h <;> simp [errorCode]
  | nextchild => rcases execNextchild_cases s with ⟨-, e⟩ | ⟨-, e⟩ <;> cases e.symm.trans h <;> simp [errorCode]
  | nop | unpack | check | getres | menc | mdec => cases h; simp [errorCode]

/-- Settles O22: a command that did not complete raised an error of its own, never the decoder's, and
`raise` writes ERR, ECODE and ERRS only. -/
theorem failedCommandWritesOnlyErrorFields : Obligations.FailedCommandWritesOnlyErrorFields := by
  intro i s t h herr
  have hcode := exec_ecode_ne_illegalCommand h
  rcases exec_next_cases h with ⟨e, rfl⟩ | ⟨-, rfl⟩
  · refine ⟨raise_eq e s, ?_⟩
    cases e with
    | invalidResolution => exact .inl rfl
    | illegalCommand => exact absurd rfl hcode
    | tileRange => exact .inr (.inl rfl)
    | noIteration => exact .inr (.inr rfl)
  · simp at herr

end Sys2Proof.Machine
end

section
/-! PROOFS. Reset (70_reset_and_hazards.md R230, R231): the two edges that enter and leave it, the invariant
of the state it leaves, what the window shows there and what a first command finds (R233). -/

namespace Sys2Proof.Machine

/-! ## Entering and leaving reset -/

theorem step_of_rstN_low {s : State} (hrst : (pinsNow s).rstN = false) :
    step s = .next (holdInReset (nextCycle s)) := by
  simp [step, clockCycle, hrst]

theorem step_of_leaving_reset {s : State} (hrst : (pinsNow s).rstN = true) (hreset : s.inReset = true) :
    step s = .next (leaveReset (nextCycle s)) := by
  simp [step, clockCycle, hrst, hreset]

theorem reqReady_of_inReset {s : State} (h : s.inReset = true) : reqReady s = false := by
  simp [reqReady, h]

theorem reqReady_of_rstN_low {s : State} (h : (pinsNow s).rstN = false) : reqReady s = false := by
  simp [reqReady, h]

theorem portResponse_of_rstN_low {s : State} (h : (pinsNow s).rstN = false) : portResponse s = none := by
  simp [portResponse, h]

/-- Settles O11: a cycle with `rst_n` 0 is `holdInReset`, which forgets all but the host's pins; the next
edge with `rst_n` 1 is `leaveReset`. -/
theorem resetCycleRestoresResetState : Obligations.ResetCycleRestoresResetState := by
  refine ⟨fun s hrst => ⟨?ready, ?silent, ?enters⟩, fun h hrst => ⟨?stillUnready, ?leaves⟩⟩
  case ready => exact reqReady_of_rstN_low hrst
  case silent => exact portResponse_of_rstN_low hrst
  case enters => exact step_of_rstN_low hrst
  case stillUnready => exact reqReady_of_inReset rfl
  case leaves => exact step_of_leaving_reset hrst rfl

/-- Settles O14: the step that leaves reset ends in `State.reset`, and the block held in reset has the
invariant, which every step keeps. -/
theorem resetSatisfiesInvariant : Obligations.ResetSatisfiesInvariant :=
  everyStepKeepsInvariant (holdInReset State.reset) State.reset (inv_holdInReset _)
    (step_of_leaving_reset rfl rfl)

/-! ## The window after reset -/

theorem readReg_reset (r : WinReg) :
    readReg r State.reset = if r = .id then Config.idValue else 0#32 := by
  cases r <;> decide

/-- A reserved offset reads 0 as well, so ID alone stands out (20_memory.md R69, R231). -/
theorem windowValue_reset (a : Offset) :
    windowValue a State.reset = if a = offsetOf .id then Config.idValue else 0#32 := by
  cases hreg : regAt a with
  | some r =>
    obtain rfl := offsetOf_of_regAt hreg
    simp only [windowValue_offsetOf, readReg_reset, offsetOf_inj]
  | none =>
    have hid : a ≠ offsetOf .id := by
      rintro rfl
      simp at hreg
    simp [windowValue, hreg, hid]

/-- Settles O48: the window by `windowValue_reset`, the registers by their reset values; and a cycle with
nothing presented only ends a response, of which there is none. -/
theorem resetValues : Obligations.ResetValues := by
  refine ⟨fun a ha => ?window, rfl, rfl, rfl, rfl, rfl, rfl, rfl, rfl, rfl, rfl, rfl, rfl, rfl, rfl, rfl,
    rfl, rfl, rfl, fun p hrst hvalid => ?idle⟩
  case window =>
    rw [readResponse, misaligned_of_mod_four ha, windowValue_reset]
    rfl
  case idle =>
    exact step_of_nothing_presented ⟨hrst, rfl⟩ rfl (by simp [pinsNow, presented, hvalid])

/-! ## The first command -/

/-- The index 0 has no header bit (40_codec.md R102, R107). -/
theorem validIndex_zero : validIndex 0#64 = false := by
  rw [← Bool.not_eq_true, validIndex_iff]
  rintro ⟨-, hhdr, -⟩
  simp at hhdr

theorem validCell_zero : validCell 0#64 = false := by
  rw [validCell, validIndex_zero, Bool.false_and]

theorem canonicalCell_zero : canonicalCell 0#64 = false := by
  rw [canonicalCell, validCell_zero, Bool.false_and]

/-- The only tile of resolution 0 (00_scope.md R11): a header and 52 footer ones. -/
theorem packIndex_zero : packIndex 0 0#32 0#32 = 0x480FFFFFFFFFFFFF#64 :=
  BitVec.eq_of_toNat_eq (packIndex_toNat (by decide) (by decide) (by decide))

/-- The index 0 has resolution 0, whose tile has no coordinate but 0. -/
theorem unpack_zero : unpackX 0#64 = 0#32 ∧ unpackY 0#64 = 0#32 :=
  ⟨BitVec.eq_of_toNat_eq (Nat.lt_one_iff.1 (unpackX_toNat_lt 0#64)),
    BitVec.eq_of_toNat_eq (Nat.lt_one_iff.1 (unpackY_toNat_lt 0#64))⟩

theorem fieldsWord_zero : fieldsWord 0#64 = 0#32 := by decide

/-- Settles O49: each command finds its operands 0 and the iterator inactive. -/
theorem firstCommandAfterReset : Obligations.FirstCommandAfterReset := by
  refine ⟨⟨_, execCheck_eq _, ?check⟩, ⟨_, execNextchild_of_inactive rfl, rfl, rfl⟩,
    ⟨_, exec_pack_of_tile (by decide) (by decide) (by decide), rfl, packIndex_zero⟩,
    ⟨_, execUnpack_eq _, ?unpack⟩⟩
  case check => exact ⟨validIndex_zero, validCell_zero, canonicalCell_zero⟩
  case unpack =>
    obtain ⟨hx, hy⟩ := unpack_zero
    exact ⟨hx, hy, fieldsWord_zero⟩

end Sys2Proof.Machine
end
